-- ==== Sys2Proof/Word.lean ====
section
/-! DEFINITION. The words of the machine and their plainest forms: registers are bit vectors (spec/00_scope.md R15, R16). -/
namespace Sys2Proof

/-- A byte of memory. -/
abbrev Byte := BitVec 8
/-- A register, an address, a CSR: XLEN = FLEN = 64 (R11). -/
abbrev Word := BitVec 64
/-- An integer or FP register number (R325). -/
abbrev Reg := BitVec 5
/-- A compressed register number r', naming register 8 + r' (R328). -/
abbrev CReg := BitVec 3

end Sys2Proof
end

