-- ==== Sys2Proof/Syntax.lean ====
section
/-! DEFINITION. The instructions: one constructor for each row of spec/opcode_table.json, in the table's order.

An operand stands for each variable field of the row. Immediates and offsets are held as the assembler writes them, with the
implicit low zero bits (spec/30_encoding.md R320 to R325, spec/48_compressed.md R741). Fields the hardware ignores (aq, rl,
the FENCE fields) are kept too, so that an instruction determines its bits. -/
namespace Sys2Proof

/-- The instruction set. rd, rs1, rs2, rs3 name x or f registers as each instruction's rule says; rd', rs1', rs2' are the
3-bit fields of a compressed parcel (R328); rm is the raw rounding-mode field (R563). -/
inductive Instr where
  /-- LUI (R403). -/
  | lui (rd : Reg) (imm : BitVec 20)
  /-- AUIPC (R404). -/
  | auipc (rd : Reg) (imm : BitVec 20)
  /-- ADDI (R405). -/
  | addi (rd rs1 : Reg) (imm : BitVec 12)
  /-- SLTI (R406). -/
  | slti (rd rs1 : Reg) (imm : BitVec 12)
  /-- SLTIU (R407). -/
  | sltiu (rd rs1 : Reg) (imm : BitVec 12)
  /-- XORI (R408). -/
  | xori (rd rs1 : Reg) (imm : BitVec 12)
  /-- ORI (R409). -/
  | ori (rd rs1 : Reg) (imm : BitVec 12)
  /-- ANDI (R410). -/
  | andi (rd rs1 : Reg) (imm : BitVec 12)
  /-- SLLI (R411). -/
  | slli (rd rs1 : Reg) (shamt : BitVec 6)
  /-- SRLI (R412). -/
  | srli (rd rs1 : Reg) (shamt : BitVec 6)
  /-- SRAI (R413). -/
  | srai (rd rs1 : Reg) (shamt : BitVec 6)
  /-- ADD (R414). -/
  | add (rd rs1 rs2 : Reg)
  /-- SUB (R415). -/
  | sub (rd rs1 rs2 : Reg)
  /-- SLL (R416). -/
  | sll (rd rs1 rs2 : Reg)
  /-- SLT (R417). -/
  | slt (rd rs1 rs2 : Reg)
  /-- SLTU (R418). -/
  | sltu (rd rs1 rs2 : Reg)
  /-- XOR (R419). -/
  | xor (rd rs1 rs2 : Reg)
  /-- SRL (R420). -/
  | srl (rd rs1 rs2 : Reg)
  /-- SRA (R421). -/
  | sra (rd rs1 rs2 : Reg)
  /-- OR (R422). -/
  | or (rd rs1 rs2 : Reg)
  /-- AND (R423). -/
  | and (rd rs1 rs2 : Reg)
  /-- ADDIW (R424). -/
  | addiw (rd rs1 : Reg) (imm : BitVec 12)
  /-- SLLIW (R425). -/
  | slliw (rd rs1 : Reg) (shamt : BitVec 5)
  /-- SRLIW (R426). -/
  | srliw (rd rs1 : Reg) (shamt : BitVec 5)
  /-- SRAIW (R427). -/
  | sraiw (rd rs1 : Reg) (shamt : BitVec 5)
  /-- ADDW (R428). -/
  | addw (rd rs1 rs2 : Reg)
  /-- SUBW (R429). -/
  | subw (rd rs1 rs2 : Reg)
  /-- SLLW (R430). -/
  | sllw (rd rs1 rs2 : Reg)
  /-- SRLW (R431). -/
  | srlw (rd rs1 rs2 : Reg)
  /-- SRAW (R432). -/
  | sraw (rd rs1 rs2 : Reg)
  /-- JAL (R473). -/
  | jal (rd : Reg) (imm : BitVec 21)
  /-- JALR (R474). -/
  | jalr (rd rs1 : Reg) (imm : BitVec 12)
  /-- BEQ (R475). -/
  | beq (rs1 rs2 : Reg) (imm : BitVec 13)
  /-- BNE (R476). -/
  | bne (rs1 rs2 : Reg) (imm : BitVec 13)
  /-- BLT (R477). -/
  | blt (rs1 rs2 : Reg) (imm : BitVec 13)
  /-- BGE (R478). -/
  | bge (rs1 rs2 : Reg) (imm : BitVec 13)
  /-- BLTU (R479). -/
  | bltu (rs1 rs2 : Reg) (imm : BitVec 13)
  /-- BGEU (R480). -/
  | bgeu (rs1 rs2 : Reg) (imm : BitVec 13)
  /-- LB (R493). -/
  | lb (rd rs1 : Reg) (imm : BitVec 12)
  /-- LH (R494). -/
  | lh (rd rs1 : Reg) (imm : BitVec 12)
  /-- LW (R495). -/
  | lw (rd rs1 : Reg) (imm : BitVec 12)
  /-- LD (R496). -/
  | ld (rd rs1 : Reg) (imm : BitVec 12)
  /-- LBU (R497). -/
  | lbu (rd rs1 : Reg) (imm : BitVec 12)
  /-- LHU (R498). -/
  | lhu (rd rs1 : Reg) (imm : BitVec 12)
  /-- LWU (R499). -/
  | lwu (rd rs1 : Reg) (imm : BitVec 12)
  /-- SB (R501). -/
  | sb (rs1 rs2 : Reg) (imm : BitVec 12)
  /-- SH (R502). -/
  | sh (rs1 rs2 : Reg) (imm : BitVec 12)
  /-- SW (R503). -/
  | sw (rs1 rs2 : Reg) (imm : BitVec 12)
  /-- SD (R504). -/
  | sd (rs1 rs2 : Reg) (imm : BitVec 12)
  /-- MUL (R514). -/
  | mul (rd rs1 rs2 : Reg)
  /-- MULH (R515). -/
  | mulh (rd rs1 rs2 : Reg)
  /-- MULHSU (R516). -/
  | mulhsu (rd rs1 rs2 : Reg)
  /-- MULHU (R517). -/
  | mulhu (rd rs1 rs2 : Reg)
  /-- DIV (R518). -/
  | div (rd rs1 rs2 : Reg)
  /-- DIVU (R519). -/
  | divu (rd rs1 rs2 : Reg)
  /-- REM (R520). -/
  | rem (rd rs1 rs2 : Reg)
  /-- REMU (R521). -/
  | remu (rd rs1 rs2 : Reg)
  /-- MULW (R522). -/
  | mulw (rd rs1 rs2 : Reg)
  /-- DIVW (R523). -/
  | divw (rd rs1 rs2 : Reg)
  /-- DIVUW (R524). -/
  | divuw (rd rs1 rs2 : Reg)
  /-- REMW (R525). -/
  | remw (rd rs1 rs2 : Reg)
  /-- REMUW (R526). -/
  | remuw (rd rs1 rs2 : Reg)
  /-- LR.W (R535). -/
  | lrW (aq rl : BitVec 1) (rd rs1 : Reg)
  /-- SC.W (R536). -/
  | scW (aq rl : BitVec 1) (rd rs1 rs2 : Reg)
  /-- LR.D (R537). -/
  | lrD (aq rl : BitVec 1) (rd rs1 : Reg)
  /-- SC.D (R538). -/
  | scD (aq rl : BitVec 1) (rd rs1 rs2 : Reg)
  /-- AMOSWAP.W (R539). -/
  | amoswapW (aq rl : BitVec 1) (rd rs1 rs2 : Reg)
  /-- AMOADD.W (R540). -/
  | amoaddW (aq rl : BitVec 1) (rd rs1 rs2 : Reg)
  /-- AMOXOR.W (R541). -/
  | amoxorW (aq rl : BitVec 1) (rd rs1 rs2 : Reg)
  /-- AMOAND.W (R542). -/
  | amoandW (aq rl : BitVec 1) (rd rs1 rs2 : Reg)
  /-- AMOOR.W (R543). -/
  | amoorW (aq rl : BitVec 1) (rd rs1 rs2 : Reg)
  /-- AMOMIN.W (R544). -/
  | amominW (aq rl : BitVec 1) (rd rs1 rs2 : Reg)
  /-- AMOMAX.W (R545). -/
  | amomaxW (aq rl : BitVec 1) (rd rs1 rs2 : Reg)
  /-- AMOMINU.W (R546). -/
  | amominuW (aq rl : BitVec 1) (rd rs1 rs2 : Reg)
  /-- AMOMAXU.W (R547). -/
  | amomaxuW (aq rl : BitVec 1) (rd rs1 rs2 : Reg)
  /-- AMOSWAP.D (R548). -/
  | amoswapD (aq rl : BitVec 1) (rd rs1 rs2 : Reg)
  /-- AMOADD.D (R549). -/
  | amoaddD (aq rl : BitVec 1) (rd rs1 rs2 : Reg)
  /-- AMOXOR.D (R550). -/
  | amoxorD (aq rl : BitVec 1) (rd rs1 rs2 : Reg)
  /-- AMOAND.D (R551). -/
  | amoandD (aq rl : BitVec 1) (rd rs1 rs2 : Reg)
  /-- AMOOR.D (R552). -/
  | amoorD (aq rl : BitVec 1) (rd rs1 rs2 : Reg)
  /-- AMOMIN.D (R553). -/
  | amominD (aq rl : BitVec 1) (rd rs1 rs2 : Reg)
  /-- AMOMAX.D (R554). -/
  | amomaxD (aq rl : BitVec 1) (rd rs1 rs2 : Reg)
  /-- AMOMINU.D (R555). -/
  | amominuD (aq rl : BitVec 1) (rd rs1 rs2 : Reg)
  /-- AMOMAXU.D (R556). -/
  | amomaxuD (aq rl : BitVec 1) (rd rs1 rs2 : Reg)
  /-- FLW (R581). -/
  | flw (rd rs1 : Reg) (imm : BitVec 12)
  /-- FSW (R582). -/
  | fsw (rs1 rs2 : Reg) (imm : BitVec 12)
  /-- FMADD.S (R583). -/
  | fmaddS (rm : BitVec 3) (rd rs1 rs2 rs3 : Reg)
  /-- FMSUB.S (R584). -/
  | fmsubS (rm : BitVec 3) (rd rs1 rs2 rs3 : Reg)
  /-- FNMSUB.S (R585). -/
  | fnmsubS (rm : BitVec 3) (rd rs1 rs2 rs3 : Reg)
  /-- FNMADD.S (R586). -/
  | fnmaddS (rm : BitVec 3) (rd rs1 rs2 rs3 : Reg)
  /-- FADD.S (R587). -/
  | faddS (rm : BitVec 3) (rd rs1 rs2 : Reg)
  /-- FSUB.S (R588). -/
  | fsubS (rm : BitVec 3) (rd rs1 rs2 : Reg)
  /-- FMUL.S (R589). -/
  | fmulS (rm : BitVec 3) (rd rs1 rs2 : Reg)
  /-- FDIV.S (R590). -/
  | fdivS (rm : BitVec 3) (rd rs1 rs2 : Reg)
  /-- FSQRT.S (R591). -/
  | fsqrtS (rm : BitVec 3) (rd rs1 : Reg)
  /-- FSGNJ.S (R592). -/
  | fsgnjS (rd rs1 rs2 : Reg)
  /-- FSGNJN.S (R593). -/
  | fsgnjnS (rd rs1 rs2 : Reg)
  /-- FSGNJX.S (R594). -/
  | fsgnjxS (rd rs1 rs2 : Reg)
  /-- FMIN.S (R595). -/
  | fminS (rd rs1 rs2 : Reg)
  /-- FMAX.S (R596). -/
  | fmaxS (rd rs1 rs2 : Reg)
  /-- FCVT.W.S (R597). -/
  | fcvtWS (rm : BitVec 3) (rd rs1 : Reg)
  /-- FCVT.WU.S (R598). -/
  | fcvtWuS (rm : BitVec 3) (rd rs1 : Reg)
  /-- FMV.X.W (R599). -/
  | fmvXW (rd rs1 : Reg)
  /-- FEQ.S (R600). -/
  | feqS (rd rs1 rs2 : Reg)
  /-- FLT.S (R601). -/
  | fltS (rd rs1 rs2 : Reg)
  /-- FMV.W.X (R602). -/
  | fmvWX (rd rs1 : Reg)
  /-- FLE.S (R603). -/
  | fleS (rd rs1 rs2 : Reg)
  /-- FCLASS.S (R604). -/
  | fclassS (rd rs1 : Reg)
  /-- FCVT.S.W (R605). -/
  | fcvtSW (rm : BitVec 3) (rd rs1 : Reg)
  /-- FCVT.S.WU (R606). -/
  | fcvtSWu (rm : BitVec 3) (rd rs1 : Reg)
  /-- FCVT.L.S (R607). -/
  | fcvtLS (rm : BitVec 3) (rd rs1 : Reg)
  /-- FCVT.LU.S (R608). -/
  | fcvtLuS (rm : BitVec 3) (rd rs1 : Reg)
  /-- FCVT.S.L (R609). -/
  | fcvtSL (rm : BitVec 3) (rd rs1 : Reg)
  /-- FCVT.S.LU (R610). -/
  | fcvtSLu (rm : BitVec 3) (rd rs1 : Reg)
  /-- FLD (R651). -/
  | fld (rd rs1 : Reg) (imm : BitVec 12)
  /-- FSD (R652). -/
  | fsd (rs1 rs2 : Reg) (imm : BitVec 12)
  /-- FMADD.D (R653). -/
  | fmaddD (rm : BitVec 3) (rd rs1 rs2 rs3 : Reg)
  /-- FMSUB.D (R654). -/
  | fmsubD (rm : BitVec 3) (rd rs1 rs2 rs3 : Reg)
  /-- FNMSUB.D (R655). -/
  | fnmsubD (rm : BitVec 3) (rd rs1 rs2 rs3 : Reg)
  /-- FNMADD.D (R656). -/
  | fnmaddD (rm : BitVec 3) (rd rs1 rs2 rs3 : Reg)
  /-- FADD.D (R657). -/
  | faddD (rm : BitVec 3) (rd rs1 rs2 : Reg)
  /-- FSUB.D (R658). -/
  | fsubD (rm : BitVec 3) (rd rs1 rs2 : Reg)
  /-- FMUL.D (R659). -/
  | fmulD (rm : BitVec 3) (rd rs1 rs2 : Reg)
  /-- FDIV.D (R660). -/
  | fdivD (rm : BitVec 3) (rd rs1 rs2 : Reg)
  /-- FSQRT.D (R661). -/
  | fsqrtD (rm : BitVec 3) (rd rs1 : Reg)
  /-- FSGNJ.D (R662). -/
  | fsgnjD (rd rs1 rs2 : Reg)
  /-- FSGNJN.D (R663). -/
  | fsgnjnD (rd rs1 rs2 : Reg)
  /-- FSGNJX.D (R664). -/
  | fsgnjxD (rd rs1 rs2 : Reg)
  /-- FMIN.D (R665). -/
  | fminD (rd rs1 rs2 : Reg)
  /-- FMAX.D (R666). -/
  | fmaxD (rd rs1 rs2 : Reg)
  /-- FCVT.S.D (R667). -/
  | fcvtSD (rm : BitVec 3) (rd rs1 : Reg)
  /-- FCVT.D.S (R668). -/
  | fcvtDS (rm : BitVec 3) (rd rs1 : Reg)
  /-- FEQ.D (R669). -/
  | feqD (rd rs1 rs2 : Reg)
  /-- FLT.D (R670). -/
  | fltD (rd rs1 rs2 : Reg)
  /-- FLE.D (R671). -/
  | fleD (rd rs1 rs2 : Reg)
  /-- FCLASS.D (R672). -/
  | fclassD (rd rs1 : Reg)
  /-- FCVT.W.D (R673). -/
  | fcvtWD (rm : BitVec 3) (rd rs1 : Reg)
  /-- FCVT.WU.D (R674). -/
  | fcvtWuD (rm : BitVec 3) (rd rs1 : Reg)
  /-- FCVT.D.W (R675). -/
  | fcvtDW (rm : BitVec 3) (rd rs1 : Reg)
  /-- FCVT.D.WU (R676). -/
  | fcvtDWu (rm : BitVec 3) (rd rs1 : Reg)
  /-- FCVT.L.D (R677). -/
  | fcvtLD (rm : BitVec 3) (rd rs1 : Reg)
  /-- FCVT.LU.D (R678). -/
  | fcvtLuD (rm : BitVec 3) (rd rs1 : Reg)
  /-- FMV.X.D (R679). -/
  | fmvXD (rd rs1 : Reg)
  /-- FCVT.D.L (R680). -/
  | fcvtDL (rm : BitVec 3) (rd rs1 : Reg)
  /-- FCVT.D.LU (R681). -/
  | fcvtDLu (rm : BitVec 3) (rd rs1 : Reg)
  /-- FMV.D.X (R682). -/
  | fmvDX (rd rs1 : Reg)
  /-- ECALL (R700). -/
  | ecall
  /-- EBREAK (R701). -/
  | ebreak
  /-- MRET (R702). -/
  | mret
  /-- SRET (R703). -/
  | sret
  /-- WFI (R704). -/
  | wfi
  /-- SFENCE.VMA (R705). -/
  | sfenceVma (rs1 rs2 : Reg)
  /-- FENCE (R706). -/
  | fence (fm pred succ : BitVec 4) (rs1 rd : Reg)
  /-- FENCE.I (R707). -/
  | fenceI (imm : BitVec 12) (rs1 rd : Reg)
  /-- CSRRW (R714). -/
  | csrrw (rd : Reg) (csr : BitVec 12) (rs1 : Reg)
  /-- CSRRS (R715). -/
  | csrrs (rd : Reg) (csr : BitVec 12) (rs1 : Reg)
  /-- CSRRC (R716). -/
  | csrrc (rd : Reg) (csr : BitVec 12) (rs1 : Reg)
  /-- CSRRWI (R717). -/
  | csrrwi (rd : Reg) (csr : BitVec 12) (uimm : BitVec 5)
  /-- CSRRSI (R718). -/
  | csrrsi (rd : Reg) (csr : BitVec 12) (uimm : BitVec 5)
  /-- CSRRCI (R719). -/
  | csrrci (rd : Reg) (csr : BitVec 12) (uimm : BitVec 5)
  /-- C.ADDI4SPN (R744). -/
  | cAddi4spn (rd' : CReg) (nzuimm : BitVec 10)
  /-- C.FLD (R745). -/
  | cFld (rd' rs1' : CReg) (uimm : BitVec 8)
  /-- C.LW (R746). -/
  | cLw (rd' rs1' : CReg) (uimm : BitVec 7)
  /-- C.LD (R747). -/
  | cLd (rd' rs1' : CReg) (uimm : BitVec 8)
  /-- C.FSD (R748). -/
  | cFsd (rs1' rs2' : CReg) (uimm : BitVec 8)
  /-- C.SW (R749). -/
  | cSw (rs1' rs2' : CReg) (uimm : BitVec 7)
  /-- C.SD (R750). -/
  | cSd (rs1' rs2' : CReg) (uimm : BitVec 8)
  /-- C.NOP (R751). -/
  | cNop (nzimm : BitVec 6)
  /-- C.ADDI (R752). -/
  | cAddi (rd : Reg) (nzimm : BitVec 6)
  /-- C.ADDIW (R753). -/
  | cAddiw (rd : Reg) (imm : BitVec 6)
  /-- C.LI (R754). -/
  | cLi (rd : Reg) (imm : BitVec 6)
  /-- C.ADDI16SP (R755). -/
  | cAddi16sp (nzimm : BitVec 10)
  /-- C.LUI (R756). -/
  | cLui (rd : Reg) (nzimm : BitVec 6)
  /-- C.SRLI (R757). -/
  | cSrli (rd' : CReg) (shamt : BitVec 6)
  /-- C.SRAI (R758). -/
  | cSrai (rd' : CReg) (shamt : BitVec 6)
  /-- C.ANDI (R759). -/
  | cAndi (rd' : CReg) (imm : BitVec 6)
  /-- C.SUB (R760). -/
  | cSub (rd' rs2' : CReg)
  /-- C.XOR (R761). -/
  | cXor (rd' rs2' : CReg)
  /-- C.OR (R762). -/
  | cOr (rd' rs2' : CReg)
  /-- C.AND (R763). -/
  | cAnd (rd' rs2' : CReg)
  /-- C.SUBW (R764). -/
  | cSubw (rd' rs2' : CReg)
  /-- C.ADDW (R765). -/
  | cAddw (rd' rs2' : CReg)
  /-- C.J (R766). -/
  | cJ (offset : BitVec 12)
  /-- C.BEQZ (R767). -/
  | cBeqz (rs1' : CReg) (offset : BitVec 9)
  /-- C.BNEZ (R768). -/
  | cBnez (rs1' : CReg) (offset : BitVec 9)
  /-- C.SLLI (R769). -/
  | cSlli (rd : Reg) (shamt : BitVec 6)
  /-- C.FLDSP (R770). -/
  | cFldsp (rd : Reg) (uimm : BitVec 9)
  /-- C.LWSP (R771). -/
  | cLwsp (rd : Reg) (uimm : BitVec 8)
  /-- C.LDSP (R772). -/
  | cLdsp (rd : Reg) (uimm : BitVec 9)
  /-- C.JR (R773). -/
  | cJr (rs1 : Reg)
  /-- C.MV (R774). -/
  | cMv (rd rs2 : Reg)
  /-- C.EBREAK (R775). -/
  | cEbreak
  /-- C.JALR (R776). -/
  | cJalr (rs1 : Reg)
  /-- C.ADD (R777). -/
  | cAdd (rd rs2 : Reg)
  /-- C.FSDSP (R778). -/
  | cFsdsp (rs2 : Reg) (uimm : BitVec 9)
  /-- C.SWSP (R779). -/
  | cSwsp (rs2 : Reg) (uimm : BitVec 8)
  /-- C.SDSP (R780). -/
  | cSdsp (rs2 : Reg) (uimm : BitVec 9)
  deriving DecidableEq, Repr

end Sys2Proof
end

