-- ==== Sys2Proof/WellFormed.lean ====
section
/-! DEFINITION. Which terms of Instr stand for an instruction: the immediates an encoding can hold, and the constraints of
the compressed rows (spec/48_compressed.md R742, R744 to R780). -/
namespace Sys2Proof

/-- The low n bits of an immediate are 0: it is a multiple of 2^n. -/
def lowZero {w : Nat} (n : Nat) (imm : BitVec w) : Bool := imm.extractLsb' 0 n == 0#n

namespace Instr

/-- The instruction has an encoding. A branch or jump offset is even (R322, R324); a scaled compressed immediate is a
multiple of its scale (R741); a compressed row's nonzero fields are nonzero (R742), and C.LUI does not name x2 (R756). -/
def wellFormed : Instr → Bool
  | .jal _ imm => lowZero 1 imm
  | .beq _ _ imm | .bne _ _ imm | .blt _ _ imm | .bge _ _ imm | .bltu _ _ imm | .bgeu _ _ imm => lowZero 1 imm
  | .cAddi4spn _ nzuimm => lowZero 2 nzuimm && nzuimm != 0#10
  | .cFld _ _ uimm | .cLd _ _ uimm | .cFsd _ _ uimm | .cSd _ _ uimm => lowZero 3 uimm
  | .cLw _ _ uimm | .cSw _ _ uimm => lowZero 2 uimm
  | .cAddi rd _ | .cAddiw rd _ => rd != 0#5
  | .cAddi16sp nzimm => lowZero 4 nzimm && nzimm != 0#10
  | .cLui rd nzimm => rd != 2#5 && nzimm != 0#6
  | .cJ offset => lowZero 1 offset
  | .cBeqz _ offset | .cBnez _ offset => lowZero 1 offset
  | .cFldsp _ uimm => lowZero 3 uimm
  | .cLwsp rd uimm => rd != 0#5 && lowZero 2 uimm
  | .cLdsp rd uimm => rd != 0#5 && lowZero 3 uimm
  | .cJr rs1 | .cJalr rs1 => rs1 != 0#5
  | .cMv _ rs2 | .cAdd _ rs2 => rs2 != 0#5
  | .cFsdsp _ uimm | .cSdsp _ uimm => lowZero 3 uimm
  | .cSwsp _ uimm => lowZero 2 uimm
  | _ => true

end Instr
end Sys2Proof
end

