-- ==== Sys2Proof/Decode.lean ====
section
/-! DEFINITION. From bits to an instruction and back (spec/30_encoding.md, spec/48_compressed.md, opcode_table.json).

The decoder is a pure function of the bits (R302). Whether the instruction may run in the current mode is decided when it
executes (R330(c) to (f)). The encoder below is written from the same formats; an instruction determines its bits, so the
trap value of an illegal instruction (R822) can be had from the instruction. -/
namespace Sys2Proof

/-- The bits of one instruction: a 16-bit parcel or a 32-bit word (R300). -/
inductive Code where
  | half (p : BitVec 16)
  | word (w : BitVec 32)
  deriving DecidableEq, Repr

/-- Why bits are no instruction. -/
inductive Reject where
  /-- The bytes end before the instruction does. -/
  | incomplete
  /-- A reserved parcel, the all-zero one among them (R330(b), R331, R742). -/
  | reservedParcel (p : BitVec 16)
  /-- A word no row of the opcode table matches (R330(a)). -/
  | unmatchedWord (w : BitVec 32)
  /-- The first 32 bits of an instruction longer than 32 bits (R300, D47). -/
  | longInstruction (w : BitVec 32)
  deriving DecidableEq, Repr

namespace Code

/-- The raw bits, zero-extended: the trap value of an illegal instruction (R822, D49). -/
def raw : Code → Word
  | .half p => p.setWidth 64
  | .word w => w.setWidth 64

/-- The size in bytes, 2 or 4 (R44). -/
def size : Code → Nat
  | .half _ => 2
  | .word _ => 4

/-- The bytes in memory order: little-endian parcels (R161). -/
def bytes : Code → List Byte
  | .half p => [p.extractLsb' 0 8, p.extractLsb' 8 8]
  | .word w => [w.extractLsb' 0 8, w.extractLsb' 8 8, w.extractLsb' 16 8, w.extractLsb' 24 8]

end Code

/-! ## Fields of a 32-bit word (R305 to R316) -/

namespace InstrField

def opcode (w : BitVec 32) : BitVec 7 := w.extractLsb' 0 7
def rd (w : BitVec 32) : Reg := w.extractLsb' 7 5
def funct3 (w : BitVec 32) : BitVec 3 := w.extractLsb' 12 3
def rs1 (w : BitVec 32) : Reg := w.extractLsb' 15 5
def rs2 (w : BitVec 32) : Reg := w.extractLsb' 20 5
def rs3 (w : BitVec 32) : Reg := w.extractLsb' 27 5
def funct7 (w : BitVec 32) : BitVec 7 := w.extractLsb' 25 7
def funct6 (w : BitVec 32) : BitVec 6 := w.extractLsb' 26 6
def funct5 (w : BitVec 32) : BitVec 5 := w.extractLsb' 27 5
def fmt (w : BitVec 32) : BitVec 2 := w.extractLsb' 25 2
def aq (w : BitVec 32) : BitVec 1 := w.extractLsb' 26 1
def rl (w : BitVec 32) : BitVec 1 := w.extractLsb' 25 1
def shamt6 (w : BitVec 32) : BitVec 6 := w.extractLsb' 20 6
def fm (w : BitVec 32) : BitVec 4 := w.extractLsb' 28 4
def pred (w : BitVec 32) : BitVec 4 := w.extractLsb' 24 4
def succ (w : BitVec 32) : BitVec 4 := w.extractLsb' 20 4
/-- inst[31:20], the I-immediate before extension (R320) and the CSR number (R314). -/
def immI (w : BitVec 32) : BitVec 12 := w.extractLsb' 20 12
/-- inst[31:12], the U-immediate's upper bits (R323). -/
def immU (w : BitVec 32) : BitVec 20 := w.extractLsb' 12 20

/-! ## Immediates of a 32-bit word, from the fields that hold them -/

/-- S-immediate: inst[31:25] ++ inst[11:7] (R321). -/
def immS (hi : BitVec 7) (lo : BitVec 5) : BitVec 12 := hi ++ lo
def immSHi (imm : BitVec 12) : BitVec 7 := imm.extractLsb' 5 7
def immSLo (imm : BitVec 12) : BitVec 5 := imm.extractLsb' 0 5
/-- B-immediate: inst[31] ++ inst[7] ++ inst[30:25] ++ inst[11:8] ++ 0 (R322). -/
def immB (hi : BitVec 7) (lo : BitVec 5) : BitVec 13 :=
  hi.extractLsb' 6 1 ++ lo.extractLsb' 0 1 ++ hi.extractLsb' 0 6 ++ lo.extractLsb' 1 4 ++ 0#1
def immBHi (imm : BitVec 13) : BitVec 7 := imm.extractLsb' 12 1 ++ imm.extractLsb' 5 6
def immBLo (imm : BitVec 13) : BitVec 5 := imm.extractLsb' 1 4 ++ imm.extractLsb' 11 1
/-- J-immediate: inst[31] ++ inst[19:12] ++ inst[20] ++ inst[30:21] ++ 0, from inst[31:12] (R324). -/
def immJ (u : BitVec 20) : BitVec 21 :=
  u.extractLsb' 19 1 ++ u.extractLsb' 0 8 ++ u.extractLsb' 8 1 ++ u.extractLsb' 9 10 ++ 0#1
def immJEnc (imm : BitVec 21) : BitVec 20 :=
  imm.extractLsb' 20 1 ++ imm.extractLsb' 1 10 ++ imm.extractLsb' 11 1 ++ imm.extractLsb' 12 8

/-! ## Fields of a 16-bit parcel (R327), named by their bit positions -/

def cquadrant (p : BitVec 16) : BitVec 2 := p.extractLsb' 0 2
def cfunct3 (p : BitVec 16) : BitVec 3 := p.extractLsb' 13 3
def c12 (p : BitVec 16) : BitVec 1 := p.extractLsb' 12 1
def c11_10 (p : BitVec 16) : BitVec 2 := p.extractLsb' 10 2
def c9_7 (p : BitVec 16) : CReg := p.extractLsb' 7 3
def c6_5 (p : BitVec 16) : BitVec 2 := p.extractLsb' 5 2
def c4_2 (p : BitVec 16) : CReg := p.extractLsb' 2 3
def c11_7 (p : BitVec 16) : Reg := p.extractLsb' 7 5
def c6_2 (p : BitVec 16) : Reg := p.extractLsb' 2 5
def c12_10 (p : BitVec 16) : BitVec 3 := p.extractLsb' 10 3
def c12_7 (p : BitVec 16) : BitVec 6 := p.extractLsb' 7 6
def c12_5 (p : BitVec 16) : BitVec 8 := p.extractLsb' 5 8
def c12_2 (p : BitVec 16) : BitVec 11 := p.extractLsb' 2 11

/-! ## Immediates of a parcel (R741), each from the fields that hold it, and back -/

/-- imm[5] imm[4:0] (R752 and the other CI and CB forms). -/
def imm6 (hi : BitVec 1) (lo : BitVec 5) : BitVec 6 := hi ++ lo
def imm6Hi (imm : BitVec 6) : BitVec 1 := imm.extractLsb' 5 1
def imm6Lo (imm : BitVec 6) : BitVec 5 := imm.extractLsb' 0 5
/-- nzuimm[5:4|9:6|2|3], times 4 (R744). -/
def nzuimm4spn (b : BitVec 8) : BitVec 10 :=
  b.extractLsb' 2 4 ++ b.extractLsb' 6 2 ++ b.extractLsb' 0 1 ++ b.extractLsb' 1 1 ++ 0#2
def nzuimmEnc (imm : BitVec 10) : BitVec 8 :=
  imm.extractLsb' 4 2 ++ imm.extractLsb' 6 4 ++ imm.extractLsb' 2 1 ++ imm.extractLsb' 3 1
/-- uimm[5:3] and uimm[7:6], times 8 (R745, R747, R748, R750). -/
def uimmD (hi : BitVec 3) (lo : BitVec 2) : BitVec 8 := lo ++ hi ++ 0#3
def uimmDHi (imm : BitVec 8) : BitVec 3 := imm.extractLsb' 3 3
def uimmDLo (imm : BitVec 8) : BitVec 2 := imm.extractLsb' 6 2
/-- uimm[5:3] and uimm[2|6], times 4 (R746, R749). -/
def uimmW (hi : BitVec 3) (lo : BitVec 2) : BitVec 7 := lo.extractLsb' 0 1 ++ hi ++ lo.extractLsb' 1 1 ++ 0#2
def uimmWHi (imm : BitVec 7) : BitVec 3 := imm.extractLsb' 3 3
def uimmWLo (imm : BitVec 7) : BitVec 2 := imm.extractLsb' 2 1 ++ imm.extractLsb' 6 1
/-- nzimm[9] and nzimm[4|6|8:7|5], times 16 (R755). -/
def nzimm16 (hi : BitVec 1) (lo : BitVec 5) : BitVec 10 :=
  hi ++ lo.extractLsb' 1 2 ++ lo.extractLsb' 3 1 ++ lo.extractLsb' 0 1 ++ lo.extractLsb' 4 1 ++ 0#4
def nzimm16Hi (imm : BitVec 10) : BitVec 1 := imm.extractLsb' 9 1
def nzimm16Lo (imm : BitVec 10) : BitVec 5 :=
  imm.extractLsb' 4 1 ++ imm.extractLsb' 6 1 ++ imm.extractLsb' 7 2 ++ imm.extractLsb' 5 1
/-- offset[11|4|9:8|10|6|7|3:1|5], times 2 (R766). -/
def offJ (b : BitVec 11) : BitVec 12 :=
  b.extractLsb' 10 1 ++ b.extractLsb' 6 1 ++ b.extractLsb' 7 2 ++ b.extractLsb' 4 1 ++ b.extractLsb' 5 1 ++
    b.extractLsb' 0 1 ++ b.extractLsb' 9 1 ++ b.extractLsb' 1 3 ++ 0#1
def offJEnc (imm : BitVec 12) : BitVec 11 :=
  imm.extractLsb' 11 1 ++ imm.extractLsb' 4 1 ++ imm.extractLsb' 8 2 ++ imm.extractLsb' 10 1 ++ imm.extractLsb' 6 1 ++
    imm.extractLsb' 7 1 ++ imm.extractLsb' 1 3 ++ imm.extractLsb' 5 1
/-- offset[8|4:3] and offset[7:6|2:1|5], times 2 (R767, R768). -/
def offB (hi : BitVec 3) (lo : BitVec 5) : BitVec 9 :=
  hi.extractLsb' 2 1 ++ lo.extractLsb' 3 2 ++ lo.extractLsb' 0 1 ++ hi.extractLsb' 0 2 ++ lo.extractLsb' 1 2 ++ 0#1
def offBHi (imm : BitVec 9) : BitVec 3 := imm.extractLsb' 8 1 ++ imm.extractLsb' 3 2
def offBLo (imm : BitVec 9) : BitVec 5 := imm.extractLsb' 6 2 ++ imm.extractLsb' 1 2 ++ imm.extractLsb' 5 1
/-- uimm[5] and uimm[4:2|7:6], times 4 (R771). -/
def uimmWsp (hi : BitVec 1) (lo : BitVec 5) : BitVec 8 := lo.extractLsb' 0 2 ++ hi ++ lo.extractLsb' 2 3 ++ 0#2
def uimmWspHi (imm : BitVec 8) : BitVec 1 := imm.extractLsb' 5 1
def uimmWspLo (imm : BitVec 8) : BitVec 5 := imm.extractLsb' 2 3 ++ imm.extractLsb' 6 2
/-- uimm[5] and uimm[4:3|8:6], times 8 (R770, R772). -/
def uimmDsp (hi : BitVec 1) (lo : BitVec 5) : BitVec 9 := lo.extractLsb' 0 3 ++ hi ++ lo.extractLsb' 3 2 ++ 0#3
def uimmDspHi (imm : BitVec 9) : BitVec 1 := imm.extractLsb' 5 1
def uimmDspLo (imm : BitVec 9) : BitVec 5 := imm.extractLsb' 3 2 ++ imm.extractLsb' 6 3
/-- uimm[5:2|7:6], times 4 (R779). -/
def uimmWss (b : BitVec 6) : BitVec 8 := b.extractLsb' 0 2 ++ b.extractLsb' 2 4 ++ 0#2
def uimmWssEnc (imm : BitVec 8) : BitVec 6 := imm.extractLsb' 2 4 ++ imm.extractLsb' 6 2
/-- uimm[5:3|8:6], times 8 (R778, R780). -/
def uimmDss (b : BitVec 6) : BitVec 9 := b.extractLsb' 0 3 ++ b.extractLsb' 3 3 ++ 0#3
def uimmDssEnc (imm : BitVec 9) : BitVec 6 := imm.extractLsb' 3 3 ++ imm.extractLsb' 6 3

end InstrField

/-! ## Decoding a 32-bit word -/

open InstrField

/-- LOAD (spec/42_loadstore.md). -/
def decodeLoad (w : BitVec 32) : Option Instr :=
  match funct3 w with
  | 0b000#3 => some (.lb (rd w) (rs1 w) (immI w))
  | 0b001#3 => some (.lh (rd w) (rs1 w) (immI w))
  | 0b010#3 => some (.lw (rd w) (rs1 w) (immI w))
  | 0b011#3 => some (.ld (rd w) (rs1 w) (immI w))
  | 0b100#3 => some (.lbu (rd w) (rs1 w) (immI w))
  | 0b101#3 => some (.lhu (rd w) (rs1 w) (immI w))
  | 0b110#3 => some (.lwu (rd w) (rs1 w) (immI w))
  | _ => none

/-- LOAD-FP. -/
def decodeLoadFp (w : BitVec 32) : Option Instr :=
  match funct3 w with
  | 0b010#3 => some (.flw (rd w) (rs1 w) (immI w))
  | 0b011#3 => some (.fld (rd w) (rs1 w) (immI w))
  | _ => none

/-- STORE (spec/42_loadstore.md). -/
def decodeStore (w : BitVec 32) : Option Instr :=
  match funct3 w with
  | 0b000#3 => some (.sb (rs1 w) (rs2 w) (immS (funct7 w) (rd w)))
  | 0b001#3 => some (.sh (rs1 w) (rs2 w) (immS (funct7 w) (rd w)))
  | 0b010#3 => some (.sw (rs1 w) (rs2 w) (immS (funct7 w) (rd w)))
  | 0b011#3 => some (.sd (rs1 w) (rs2 w) (immS (funct7 w) (rd w)))
  | _ => none

/-- STORE-FP. -/
def decodeStoreFp (w : BitVec 32) : Option Instr :=
  match funct3 w with
  | 0b010#3 => some (.fsw (rs1 w) (rs2 w) (immS (funct7 w) (rd w)))
  | 0b011#3 => some (.fsd (rs1 w) (rs2 w) (immS (funct7 w) (rd w)))
  | _ => none

/-- BRANCH (spec/41_control.md). -/
def decodeBranch (w : BitVec 32) : Option Instr :=
  match funct3 w with
  | 0b000#3 => some (.beq (rs1 w) (rs2 w) (immB (funct7 w) (rd w)))
  | 0b001#3 => some (.bne (rs1 w) (rs2 w) (immB (funct7 w) (rd w)))
  | 0b100#3 => some (.blt (rs1 w) (rs2 w) (immB (funct7 w) (rd w)))
  | 0b101#3 => some (.bge (rs1 w) (rs2 w) (immB (funct7 w) (rd w)))
  | 0b110#3 => some (.bltu (rs1 w) (rs2 w) (immB (funct7 w) (rd w)))
  | 0b111#3 => some (.bgeu (rs1 w) (rs2 w) (immB (funct7 w) (rd w)))
  | _ => none

/-- OP-IMM, with the shifts of R312. -/
def decodeOpImm (w : BitVec 32) : Option Instr :=
  match funct3 w with
  | 0b000#3 => some (.addi (rd w) (rs1 w) (immI w))
  | 0b010#3 => some (.slti (rd w) (rs1 w) (immI w))
  | 0b011#3 => some (.sltiu (rd w) (rs1 w) (immI w))
  | 0b100#3 => some (.xori (rd w) (rs1 w) (immI w))
  | 0b110#3 => some (.ori (rd w) (rs1 w) (immI w))
  | 0b111#3 => some (.andi (rd w) (rs1 w) (immI w))
  | 0b001#3 =>
    match funct6 w with
    | 0x0#6 => some (.slli (rd w) (rs1 w) (shamt6 w))
    | _ => none
  | 0b101#3 =>
    match funct6 w with
    | 0x0#6 => some (.srli (rd w) (rs1 w) (shamt6 w))
    | 0x10#6 => some (.srai (rd w) (rs1 w) (shamt6 w))
    | _ => none

/-- OP-IMM-32, with the word shifts of R312. -/
def decodeOpImm32 (w : BitVec 32) : Option Instr :=
  match funct3 w with
  | 0b000#3 => some (.addiw (rd w) (rs1 w) (immI w))
  | 0b001#3 =>
    match funct7 w with
    | 0x0#7 => some (.slliw (rd w) (rs1 w) (rs2 w))
    | _ => none
  | 0b101#3 =>
    match funct7 w with
    | 0x0#7 => some (.srliw (rd w) (rs1 w) (rs2 w))
    | 0x20#7 => some (.sraiw (rd w) (rs1 w) (rs2 w))
    | _ => none
  | _ => none

/-- OP, with the M extension (funct7 = 0000001). -/
def decodeOp (w : BitVec 32) : Option Instr :=
  match funct7 w, funct3 w with
  | 0x0#7, 0b000#3 => some (.add (rd w) (rs1 w) (rs2 w))
  | 0x20#7, 0b000#3 => some (.sub (rd w) (rs1 w) (rs2 w))
  | 0x0#7, 0b001#3 => some (.sll (rd w) (rs1 w) (rs2 w))
  | 0x0#7, 0b010#3 => some (.slt (rd w) (rs1 w) (rs2 w))
  | 0x0#7, 0b011#3 => some (.sltu (rd w) (rs1 w) (rs2 w))
  | 0x0#7, 0b100#3 => some (.xor (rd w) (rs1 w) (rs2 w))
  | 0x0#7, 0b101#3 => some (.srl (rd w) (rs1 w) (rs2 w))
  | 0x20#7, 0b101#3 => some (.sra (rd w) (rs1 w) (rs2 w))
  | 0x0#7, 0b110#3 => some (.or (rd w) (rs1 w) (rs2 w))
  | 0x0#7, 0b111#3 => some (.and (rd w) (rs1 w) (rs2 w))
  | 0x1#7, 0b000#3 => some (.mul (rd w) (rs1 w) (rs2 w))
  | 0x1#7, 0b001#3 => some (.mulh (rd w) (rs1 w) (rs2 w))
  | 0x1#7, 0b010#3 => some (.mulhsu (rd w) (rs1 w) (rs2 w))
  | 0x1#7, 0b011#3 => some (.mulhu (rd w) (rs1 w) (rs2 w))
  | 0x1#7, 0b100#3 => some (.div (rd w) (rs1 w) (rs2 w))
  | 0x1#7, 0b101#3 => some (.divu (rd w) (rs1 w) (rs2 w))
  | 0x1#7, 0b110#3 => some (.rem (rd w) (rs1 w) (rs2 w))
  | 0x1#7, 0b111#3 => some (.remu (rd w) (rs1 w) (rs2 w))
  | _, _ => none

/-- OP-32, with the M extension. -/
def decodeOp32 (w : BitVec 32) : Option Instr :=
  match funct7 w, funct3 w with
  | 0x0#7, 0b000#3 => some (.addw (rd w) (rs1 w) (rs2 w))
  | 0x20#7, 0b000#3 => some (.subw (rd w) (rs1 w) (rs2 w))
  | 0x0#7, 0b001#3 => some (.sllw (rd w) (rs1 w) (rs2 w))
  | 0x0#7, 0b101#3 => some (.srlw (rd w) (rs1 w) (rs2 w))
  | 0x20#7, 0b101#3 => some (.sraw (rd w) (rs1 w) (rs2 w))
  | 0x1#7, 0b000#3 => some (.mulw (rd w) (rs1 w) (rs2 w))
  | 0x1#7, 0b100#3 => some (.divw (rd w) (rs1 w) (rs2 w))
  | 0x1#7, 0b101#3 => some (.divuw (rd w) (rs1 w) (rs2 w))
  | 0x1#7, 0b110#3 => some (.remw (rd w) (rs1 w) (rs2 w))
  | 0x1#7, 0b111#3 => some (.remuw (rd w) (rs1 w) (rs2 w))
  | _, _ => none

/-- AMO (R313). LR needs rs2 = 0. -/
def decodeAmo (w : BitVec 32) : Option Instr :=
  match funct3 w, funct5 w with
  | 0b010#3, 0x2#5 => if rs2 w = 0#5 then some (.lrW (aq w) (rl w) (rd w) (rs1 w)) else none
  | 0b010#3, 0x3#5 => some (.scW (aq w) (rl w) (rd w) (rs1 w) (rs2 w))
  | 0b011#3, 0x2#5 => if rs2 w = 0#5 then some (.lrD (aq w) (rl w) (rd w) (rs1 w)) else none
  | 0b011#3, 0x3#5 => some (.scD (aq w) (rl w) (rd w) (rs1 w) (rs2 w))
  | 0b010#3, 0x1#5 => some (.amoswapW (aq w) (rl w) (rd w) (rs1 w) (rs2 w))
  | 0b010#3, 0x0#5 => some (.amoaddW (aq w) (rl w) (rd w) (rs1 w) (rs2 w))
  | 0b010#3, 0x4#5 => some (.amoxorW (aq w) (rl w) (rd w) (rs1 w) (rs2 w))
  | 0b010#3, 0xC#5 => some (.amoandW (aq w) (rl w) (rd w) (rs1 w) (rs2 w))
  | 0b010#3, 0x8#5 => some (.amoorW (aq w) (rl w) (rd w) (rs1 w) (rs2 w))
  | 0b010#3, 0x10#5 => some (.amominW (aq w) (rl w) (rd w) (rs1 w) (rs2 w))
  | 0b010#3, 0x14#5 => some (.amomaxW (aq w) (rl w) (rd w) (rs1 w) (rs2 w))
  | 0b010#3, 0x18#5 => some (.amominuW (aq w) (rl w) (rd w) (rs1 w) (rs2 w))
  | 0b010#3, 0x1C#5 => some (.amomaxuW (aq w) (rl w) (rd w) (rs1 w) (rs2 w))
  | 0b011#3, 0x1#5 => some (.amoswapD (aq w) (rl w) (rd w) (rs1 w) (rs2 w))
  | 0b011#3, 0x0#5 => some (.amoaddD (aq w) (rl w) (rd w) (rs1 w) (rs2 w))
  | 0b011#3, 0x4#5 => some (.amoxorD (aq w) (rl w) (rd w) (rs1 w) (rs2 w))
  | 0b011#3, 0xC#5 => some (.amoandD (aq w) (rl w) (rd w) (rs1 w) (rs2 w))
  | 0b011#3, 0x8#5 => some (.amoorD (aq w) (rl w) (rd w) (rs1 w) (rs2 w))
  | 0b011#3, 0x10#5 => some (.amominD (aq w) (rl w) (rd w) (rs1 w) (rs2 w))
  | 0b011#3, 0x14#5 => some (.amomaxD (aq w) (rl w) (rd w) (rs1 w) (rs2 w))
  | 0b011#3, 0x18#5 => some (.amominuD (aq w) (rl w) (rd w) (rs1 w) (rs2 w))
  | 0b011#3, 0x1C#5 => some (.amomaxuD (aq w) (rl w) (rd w) (rs1 w) (rs2 w))
  | _, _ => none

/-- MADD, MSUB, NMSUB and NMADD (R306). -/
def decodeFma (w : BitVec 32) : Option Instr :=
  match opcode w, fmt w with
  | 0x43#7, 0b00#2 => some (.fmaddS (funct3 w) (rd w) (rs1 w) (rs2 w) (rs3 w))
  | 0x43#7, 0b01#2 => some (.fmaddD (funct3 w) (rd w) (rs1 w) (rs2 w) (rs3 w))
  | 0x47#7, 0b00#2 => some (.fmsubS (funct3 w) (rd w) (rs1 w) (rs2 w) (rs3 w))
  | 0x47#7, 0b01#2 => some (.fmsubD (funct3 w) (rd w) (rs1 w) (rs2 w) (rs3 w))
  | 0x4B#7, 0b00#2 => some (.fnmsubS (funct3 w) (rd w) (rs1 w) (rs2 w) (rs3 w))
  | 0x4B#7, 0b01#2 => some (.fnmsubD (funct3 w) (rd w) (rs1 w) (rs2 w) (rs3 w))
  | 0x4F#7, 0b00#2 => some (.fnmaddS (funct3 w) (rd w) (rs1 w) (rs2 w) (rs3 w))
  | 0x4F#7, 0b01#2 => some (.fnmaddD (funct3 w) (rd w) (rs1 w) (rs2 w) (rs3 w))
  | _, _ => none

/-- OP-FP (R316). -/
def decodeOpFp (w : BitVec 32) : Option Instr :=
  match funct7 w with
  | 0x0#7 => some (.faddS (funct3 w) (rd w) (rs1 w) (rs2 w))
  | 0x1#7 => some (.faddD (funct3 w) (rd w) (rs1 w) (rs2 w))
  | 0x4#7 => some (.fsubS (funct3 w) (rd w) (rs1 w) (rs2 w))
  | 0x5#7 => some (.fsubD (funct3 w) (rd w) (rs1 w) (rs2 w))
  | 0x8#7 => some (.fmulS (funct3 w) (rd w) (rs1 w) (rs2 w))
  | 0x9#7 => some (.fmulD (funct3 w) (rd w) (rs1 w) (rs2 w))
  | 0xC#7 => some (.fdivS (funct3 w) (rd w) (rs1 w) (rs2 w))
  | 0xD#7 => some (.fdivD (funct3 w) (rd w) (rs1 w) (rs2 w))
  | 0x10#7 =>
    match funct3 w with
    | 0b000#3 => some (.fsgnjS (rd w) (rs1 w) (rs2 w))
    | 0b001#3 => some (.fsgnjnS (rd w) (rs1 w) (rs2 w))
    | 0b010#3 => some (.fsgnjxS (rd w) (rs1 w) (rs2 w))
    | _ => none
  | 0x11#7 =>
    match funct3 w with
    | 0b000#3 => some (.fsgnjD (rd w) (rs1 w) (rs2 w))
    | 0b001#3 => some (.fsgnjnD (rd w) (rs1 w) (rs2 w))
    | 0b010#3 => some (.fsgnjxD (rd w) (rs1 w) (rs2 w))
    | _ => none
  | 0x14#7 =>
    match funct3 w with
    | 0b000#3 => some (.fminS (rd w) (rs1 w) (rs2 w))
    | 0b001#3 => some (.fmaxS (rd w) (rs1 w) (rs2 w))
    | _ => none
  | 0x15#7 =>
    match funct3 w with
    | 0b000#3 => some (.fminD (rd w) (rs1 w) (rs2 w))
    | 0b001#3 => some (.fmaxD (rd w) (rs1 w) (rs2 w))
    | _ => none
  | 0x20#7 =>
    match rs2 w with
    | 0x1#5 => some (.fcvtSD (funct3 w) (rd w) (rs1 w))
    | _ => none
  | 0x21#7 =>
    match rs2 w with
    | 0x0#5 => some (.fcvtDS (funct3 w) (rd w) (rs1 w))
    | _ => none
  | 0x2C#7 =>
    match rs2 w with
    | 0x0#5 => some (.fsqrtS (funct3 w) (rd w) (rs1 w))
    | _ => none
  | 0x2D#7 =>
    match rs2 w with
    | 0x0#5 => some (.fsqrtD (funct3 w) (rd w) (rs1 w))
    | _ => none
  | 0x50#7 =>
    match funct3 w with
    | 0b010#3 => some (.feqS (rd w) (rs1 w) (rs2 w))
    | 0b001#3 => some (.fltS (rd w) (rs1 w) (rs2 w))
    | 0b000#3 => some (.fleS (rd w) (rs1 w) (rs2 w))
    | _ => none
  | 0x51#7 =>
    match funct3 w with
    | 0b010#3 => some (.feqD (rd w) (rs1 w) (rs2 w))
    | 0b001#3 => some (.fltD (rd w) (rs1 w) (rs2 w))
    | 0b000#3 => some (.fleD (rd w) (rs1 w) (rs2 w))
    | _ => none
  | 0x60#7 =>
    match rs2 w with
    | 0x0#5 => some (.fcvtWS (funct3 w) (rd w) (rs1 w))
    | 0x1#5 => some (.fcvtWuS (funct3 w) (rd w) (rs1 w))
    | 0x2#5 => some (.fcvtLS (funct3 w) (rd w) (rs1 w))
    | 0x3#5 => some (.fcvtLuS (funct3 w) (rd w) (rs1 w))
    | _ => none
  | 0x61#7 =>
    match rs2 w with
    | 0x0#5 => some (.fcvtWD (funct3 w) (rd w) (rs1 w))
    | 0x1#5 => some (.fcvtWuD (funct3 w) (rd w) (rs1 w))
    | 0x2#5 => some (.fcvtLD (funct3 w) (rd w) (rs1 w))
    | 0x3#5 => some (.fcvtLuD (funct3 w) (rd w) (rs1 w))
    | _ => none
  | 0x68#7 =>
    match rs2 w with
    | 0x0#5 => some (.fcvtSW (funct3 w) (rd w) (rs1 w))
    | 0x1#5 => some (.fcvtSWu (funct3 w) (rd w) (rs1 w))
    | 0x2#5 => some (.fcvtSL (funct3 w) (rd w) (rs1 w))
    | 0x3#5 => some (.fcvtSLu (funct3 w) (rd w) (rs1 w))
    | _ => none
  | 0x69#7 =>
    match rs2 w with
    | 0x0#5 => some (.fcvtDW (funct3 w) (rd w) (rs1 w))
    | 0x1#5 => some (.fcvtDWu (funct3 w) (rd w) (rs1 w))
    | 0x2#5 => some (.fcvtDL (funct3 w) (rd w) (rs1 w))
    | 0x3#5 => some (.fcvtDLu (funct3 w) (rd w) (rs1 w))
    | _ => none
  | 0x70#7 =>
    match rs2 w, funct3 w with
    | 0x0#5, 0b000#3 => some (.fmvXW (rd w) (rs1 w))
    | 0x0#5, 0b001#3 => some (.fclassS (rd w) (rs1 w))
    | _, _ => none
  | 0x71#7 =>
    match rs2 w, funct3 w with
    | 0x0#5, 0b001#3 => some (.fclassD (rd w) (rs1 w))
    | 0x0#5, 0b000#3 => some (.fmvXD (rd w) (rs1 w))
    | _, _ => none
  | 0x78#7 =>
    match rs2 w, funct3 w with
    | 0x0#5, 0b000#3 => some (.fmvWX (rd w) (rs1 w))
    | _, _ => none
  | 0x79#7 =>
    match rs2 w, funct3 w with
    | 0x0#5, 0b000#3 => some (.fmvDX (rd w) (rs1 w))
    | _, _ => none
  | _ => none

/-- SYSTEM: the CSR instructions (R314) and, with funct3 = 000, the words of R700 to R705; nothing else (R708). -/
def decodeSystem (w : BitVec 32) : Option Instr :=
  match funct3 w with
  | 0b001#3 => some (.csrrw (rd w) (immI w) (rs1 w))
  | 0b010#3 => some (.csrrs (rd w) (immI w) (rs1 w))
  | 0b011#3 => some (.csrrc (rd w) (immI w) (rs1 w))
  | 0b101#3 => some (.csrrwi (rd w) (immI w) (rs1 w))
  | 0b110#3 => some (.csrrsi (rd w) (immI w) (rs1 w))
  | 0b111#3 => some (.csrrci (rd w) (immI w) (rs1 w))
  | 0b000#3 =>
    if rd w = 0#5 then
      match funct7 w, rs2 w, rs1 w with
      | 0x0#7, 0x0#5, 0x0#5 => some .ecall
      | 0x0#7, 0x1#5, 0x0#5 => some .ebreak
      | 0x18#7, 0x2#5, 0x0#5 => some .mret
      | 0x8#7, 0x2#5, 0x0#5 => some .sret
      | 0x8#7, 0x5#5, 0x0#5 => some .wfi
      | 0x9#7, b, a => some (.sfenceVma a b)
      | _, _, _ => none
    else none
  | _ => none

/-- MISC-MEM (R315). -/
def decodeMiscMem (w : BitVec 32) : Option Instr :=
  match funct3 w with
  | 0b000#3 => some (.fence (fm w) (pred w) (succ w) (rs1 w) (rd w))
  | 0b001#3 => some (.fenceI (immI w) (rs1 w) (rd w))
  | _ => none

/-- A 32-bit word: the major opcodes of R329. A word no row matches has no instruction (R330(a)). -/
def decode32 (w : BitVec 32) : Option Instr :=
  match opcode w with
  | 0x37#7 => some (.lui (rd w) (immU w))
  | 0x17#7 => some (.auipc (rd w) (immU w))
  | 0x6F#7 => some (.jal (rd w) (immJ (immU w)))
  | 0x67#7 => if funct3 w = 0b000#3 then some (.jalr (rd w) (rs1 w) (immI w)) else none
  | 0x63#7 => decodeBranch w
  | 0x3#7 => decodeLoad w
  | 0x23#7 => decodeStore w
  | 0x13#7 => decodeOpImm w
  | 0x1B#7 => decodeOpImm32 w
  | 0x33#7 => decodeOp w
  | 0x3B#7 => decodeOp32 w
  | 0x2F#7 => decodeAmo w
  | 0x7#7 => decodeLoadFp w
  | 0x27#7 => decodeStoreFp w
  | 0x43#7 => decodeFma w
  | 0x47#7 => decodeFma w
  | 0x4B#7 => decodeFma w
  | 0x4F#7 => decodeFma w
  | 0x53#7 => decodeOpFp w
  | 0x73#7 => decodeSystem w
  | 0xF#7 => decodeMiscMem w
  | _ => none

/-! ## Decoding a 16-bit parcel -/

/-- Quadrant 0 (R744 to R750). -/
def decodeQ0 (p : BitVec 16) : Option Instr :=
  match cfunct3 p with
  | 0b000#3 => if nzuimm4spn (c12_5 p) = 0#10 then none else some (.cAddi4spn (c4_2 p) (nzuimm4spn (c12_5 p)))
  | 0b001#3 => some (.cFld (c4_2 p) (c9_7 p) (uimmD (c12_10 p) (c6_5 p)))
  | 0b010#3 => some (.cLw (c4_2 p) (c9_7 p) (uimmW (c12_10 p) (c6_5 p)))
  | 0b011#3 => some (.cLd (c4_2 p) (c9_7 p) (uimmD (c12_10 p) (c6_5 p)))
  | 0b101#3 => some (.cFsd (c9_7 p) (c4_2 p) (uimmD (c12_10 p) (c6_5 p)))
  | 0b110#3 => some (.cSw (c9_7 p) (c4_2 p) (uimmW (c12_10 p) (c6_5 p)))
  | 0b111#3 => some (.cSd (c9_7 p) (c4_2 p) (uimmD (c12_10 p) (c6_5 p)))
  | _ => none

/-- Quadrant 1, funct3 = 100 (R757 to R765): p[11:10] selects, then in the CA group p[12] and p[6:5] (R781). -/
def decodeQ1Alu (p : BitVec 16) : Option Instr :=
  match c11_10 p with
  | 0b00#2 => some (.cSrli (c9_7 p) (imm6 (c12 p) (c6_2 p)))
  | 0b01#2 => some (.cSrai (c9_7 p) (imm6 (c12 p) (c6_2 p)))
  | 0b10#2 => some (.cAndi (c9_7 p) (imm6 (c12 p) (c6_2 p)))
  | _ =>
    match c12 p, c6_5 p with
    | 0b0#1, 0b00#2 => some (.cSub (c9_7 p) (c4_2 p))
    | 0b0#1, 0b01#2 => some (.cXor (c9_7 p) (c4_2 p))
    | 0b0#1, 0b10#2 => some (.cOr (c9_7 p) (c4_2 p))
    | 0b0#1, 0b11#2 => some (.cAnd (c9_7 p) (c4_2 p))
    | 0b1#1, 0b00#2 => some (.cSubw (c9_7 p) (c4_2 p))
    | 0b1#1, 0b01#2 => some (.cAddw (c9_7 p) (c4_2 p))
    | _, _ => none

/-- Quadrant 1 (R751 to R768). -/
def decodeQ1 (p : BitVec 16) : Option Instr :=
  match cfunct3 p with
  | 0b000#3 =>
    if c11_7 p = 0#5 then some (.cNop (imm6 (c12 p) (c6_2 p))) else some (.cAddi (c11_7 p) (imm6 (c12 p) (c6_2 p)))
  | 0b001#3 => if c11_7 p = 0#5 then none else some (.cAddiw (c11_7 p) (imm6 (c12 p) (c6_2 p)))
  | 0b010#3 => some (.cLi (c11_7 p) (imm6 (c12 p) (c6_2 p)))
  | 0b011#3 =>
    if c11_7 p = 2#5 then
      if nzimm16 (c12 p) (c6_2 p) = 0#10 then none else some (.cAddi16sp (nzimm16 (c12 p) (c6_2 p)))
    else if imm6 (c12 p) (c6_2 p) = 0#6 then none else some (.cLui (c11_7 p) (imm6 (c12 p) (c6_2 p)))
  | 0b100#3 => decodeQ1Alu p
  | 0b101#3 => some (.cJ (offJ (c12_2 p)))
  | 0b110#3 => some (.cBeqz (c9_7 p) (offB (c12_10 p) (c6_2 p)))
  | _ => some (.cBnez (c9_7 p) (offB (c12_10 p) (c6_2 p)))

/-- Quadrant 2, funct3 = 100 (R773 to R777), with the selectors of R781. -/
def decodeQ2Jump (p : BitVec 16) : Option Instr :=
  if c12 p = 0#1 then
    if c6_2 p = 0#5 then if c11_7 p = 0#5 then none else some (.cJr (c11_7 p))
    else some (.cMv (c11_7 p) (c6_2 p))
  else if c6_2 p = 0#5 then if c11_7 p = 0#5 then some .cEbreak else some (.cJalr (c11_7 p))
  else some (.cAdd (c11_7 p) (c6_2 p))

/-- Quadrant 2 (R769 to R780). -/
def decodeQ2 (p : BitVec 16) : Option Instr :=
  match cfunct3 p with
  | 0b000#3 => some (.cSlli (c11_7 p) (imm6 (c12 p) (c6_2 p)))
  | 0b001#3 => some (.cFldsp (c11_7 p) (uimmDsp (c12 p) (c6_2 p)))
  | 0b010#3 => if c11_7 p = 0#5 then none else some (.cLwsp (c11_7 p) (uimmWsp (c12 p) (c6_2 p)))
  | 0b011#3 => if c11_7 p = 0#5 then none else some (.cLdsp (c11_7 p) (uimmDsp (c12 p) (c6_2 p)))
  | 0b100#3 => decodeQ2Jump p
  | 0b101#3 => some (.cFsdsp (c6_2 p) (uimmDss (c12_7 p)))
  | 0b110#3 => some (.cSwsp (c6_2 p) (uimmWss (c12_7 p)))
  | _ => some (.cSdsp (c6_2 p) (uimmDss (c12_7 p)))

/-- A 16-bit parcel, by quadrant (R300). A reserved encoding has no instruction (R742); a hint has (R743). -/
def decode16 (p : BitVec 16) : Option Instr :=
  match cquadrant p with
  | 0b00#2 => decodeQ0 p
  | 0b01#2 => decodeQ1 p
  | 0b10#2 => decodeQ2 p
  | _ => none

/-! ## Decoding bytes -/

/-- The instruction of complete bits, or why there is none. -/
def decodeCode : Code → Except Reject Instr
  | .half p =>
    match decode16 p with
    | some i => .ok i
    | none => .error (.reservedParcel p)
  | .word w =>
    match decode32 w with
    | some i => .ok i
    | none => .error (if w.extractLsb' 0 5 = 0x1F#5 then .longInstruction w else .unmatchedWord w)

/-- The bits at the head of a byte sequence, and the rest: two bytes unless bits 1:0 of the first parcel are 11 (R203). -/
def splitCode : List Byte → Except Reject (Code × List Byte)
  | b0 :: b1 :: rest =>
    if b0.extractLsb' 0 2 = 0b11#2 then
      match rest with
      | b2 :: b3 :: rest' => .ok (.word (b3 ++ b2 ++ (b1 ++ b0)), rest')
      | _ => .error .incomplete
    else .ok (.half (b1 ++ b0), rest)
  | _ => .error .incomplete

/-- The decoder on bytes: the instruction at their head and the rest. Total; it rejects by name. -/
def decode (bs : List Byte) : Except Reject (Instr × List Byte) :=
  match splitCode bs with
  | .error e => .error e
  | .ok (c, rest) =>
    match decodeCode c with
    | .error e => .error e
    | .ok i => .ok (i, rest)

/-! ## Encoding -/

def rType (f7 : BitVec 7) (rs2 rs1 : Reg) (f3 : BitVec 3) (rd : Reg) (op : BitVec 7) : BitVec 32 :=
  f7 ++ rs2 ++ rs1 ++ f3 ++ rd ++ op
def r4Type (rs3 : Reg) (fmt : BitVec 2) (rs2 rs1 : Reg) (rm : BitVec 3) (rd : Reg) (op : BitVec 7) : BitVec 32 :=
  rs3 ++ fmt ++ rs2 ++ rs1 ++ rm ++ rd ++ op
def iType (imm : BitVec 12) (rs1 : Reg) (f3 : BitVec 3) (rd : Reg) (op : BitVec 7) : BitVec 32 :=
  imm ++ rs1 ++ f3 ++ rd ++ op
def uType (imm : BitVec 20) (rd : Reg) (op : BitVec 7) : BitVec 32 := imm ++ rd ++ op
def shType (f6 shamt : BitVec 6) (rs1 : Reg) (f3 : BitVec 3) (rd : Reg) (op : BitVec 7) : BitVec 32 :=
  f6 ++ shamt ++ rs1 ++ f3 ++ rd ++ op
def amoType (f5 : BitVec 5) (aq rl : BitVec 1) (rs2 rs1 : Reg) (f3 : BitVec 3) (rd : Reg) (op : BitVec 7) : BitVec 32 :=
  f5 ++ aq ++ rl ++ rs2 ++ rs1 ++ f3 ++ rd ++ op
def fenceType (fm pred succ : BitVec 4) (rs1 : Reg) (f3 : BitVec 3) (rd : Reg) (op : BitVec 7) : BitVec 32 :=
  fm ++ pred ++ succ ++ rs1 ++ f3 ++ rd ++ op

def ciType (f3 : BitVec 3) (b12 : BitVec 1) (r : Reg) (b6_2 : BitVec 5) (op : BitVec 2) : BitVec 16 :=
  f3 ++ b12 ++ r ++ b6_2 ++ op
def cssType (f3 : BitVec 3) (b12_7 : BitVec 6) (r : Reg) (op : BitVec 2) : BitVec 16 := f3 ++ b12_7 ++ r ++ op
def ciwType (f3 : BitVec 3) (b12_5 : BitVec 8) (r : CReg) (op : BitVec 2) : BitVec 16 := f3 ++ b12_5 ++ r ++ op
def clType (f3 b12_10 : BitVec 3) (r1 : CReg) (b6_5 : BitVec 2) (r2 : CReg) (op : BitVec 2) : BitVec 16 :=
  f3 ++ b12_10 ++ r1 ++ b6_5 ++ r2 ++ op
def caType (f3 : BitVec 3) (b12 : BitVec 1) (b11_10 : BitVec 2) (r1 : CReg) (b6_5 : BitVec 2) (r2 : CReg)
    (op : BitVec 2) : BitVec 16 := f3 ++ b12 ++ b11_10 ++ r1 ++ b6_5 ++ r2 ++ op
def cbType (f3 : BitVec 3) (b12 : BitVec 1) (b11_10 : BitVec 2) (r : CReg) (b6_2 : BitVec 5) (op : BitVec 2) :
    BitVec 16 := f3 ++ b12 ++ b11_10 ++ r ++ b6_2 ++ op
def cbrType (f3 b12_10 : BitVec 3) (r : CReg) (b6_2 : BitVec 5) (op : BitVec 2) : BitVec 16 :=
  f3 ++ b12_10 ++ r ++ b6_2 ++ op
def cjType (f3 : BitVec 3) (b12_2 : BitVec 11) (op : BitVec 2) : BitVec 16 := f3 ++ b12_2 ++ op

/-- The bits of an instruction: every row of opcode_table.json, its fixed bits as the row's match gives them. -/
def encode : Instr → Code
  | .lui rd imm => .word (uType imm rd 0x37#7)
  | .auipc rd imm => .word (uType imm rd 0x17#7)
  | .addi rd rs1 imm => .word (iType imm rs1 0b000#3 rd 0x13#7)
  | .slti rd rs1 imm => .word (iType imm rs1 0b010#3 rd 0x13#7)
  | .sltiu rd rs1 imm => .word (iType imm rs1 0b011#3 rd 0x13#7)
  | .xori rd rs1 imm => .word (iType imm rs1 0b100#3 rd 0x13#7)
  | .ori rd rs1 imm => .word (iType imm rs1 0b110#3 rd 0x13#7)
  | .andi rd rs1 imm => .word (iType imm rs1 0b111#3 rd 0x13#7)
  | .slli rd rs1 shamt => .word (shType 0x0#6 shamt rs1 0b001#3 rd 0x13#7)
  | .srli rd rs1 shamt => .word (shType 0x0#6 shamt rs1 0b101#3 rd 0x13#7)
  | .srai rd rs1 shamt => .word (shType 0x10#6 shamt rs1 0b101#3 rd 0x13#7)
  | .add rd rs1 rs2 => .word (rType 0x0#7 rs2 rs1 0b000#3 rd 0x33#7)
  | .sub rd rs1 rs2 => .word (rType 0x20#7 rs2 rs1 0b000#3 rd 0x33#7)
  | .sll rd rs1 rs2 => .word (rType 0x0#7 rs2 rs1 0b001#3 rd 0x33#7)
  | .slt rd rs1 rs2 => .word (rType 0x0#7 rs2 rs1 0b010#3 rd 0x33#7)
  | .sltu rd rs1 rs2 => .word (rType 0x0#7 rs2 rs1 0b011#3 rd 0x33#7)
  | .xor rd rs1 rs2 => .word (rType 0x0#7 rs2 rs1 0b100#3 rd 0x33#7)
  | .srl rd rs1 rs2 => .word (rType 0x0#7 rs2 rs1 0b101#3 rd 0x33#7)
  | .sra rd rs1 rs2 => .word (rType 0x20#7 rs2 rs1 0b101#3 rd 0x33#7)
  | .or rd rs1 rs2 => .word (rType 0x0#7 rs2 rs1 0b110#3 rd 0x33#7)
  | .and rd rs1 rs2 => .word (rType 0x0#7 rs2 rs1 0b111#3 rd 0x33#7)
  | .addiw rd rs1 imm => .word (iType imm rs1 0b000#3 rd 0x1B#7)
  | .slliw rd rs1 shamt => .word (rType 0x0#7 shamt rs1 0b001#3 rd 0x1B#7)
  | .srliw rd rs1 shamt => .word (rType 0x0#7 shamt rs1 0b101#3 rd 0x1B#7)
  | .sraiw rd rs1 shamt => .word (rType 0x20#7 shamt rs1 0b101#3 rd 0x1B#7)
  | .addw rd rs1 rs2 => .word (rType 0x0#7 rs2 rs1 0b000#3 rd 0x3B#7)
  | .subw rd rs1 rs2 => .word (rType 0x20#7 rs2 rs1 0b000#3 rd 0x3B#7)
  | .sllw rd rs1 rs2 => .word (rType 0x0#7 rs2 rs1 0b001#3 rd 0x3B#7)
  | .srlw rd rs1 rs2 => .word (rType 0x0#7 rs2 rs1 0b101#3 rd 0x3B#7)
  | .sraw rd rs1 rs2 => .word (rType 0x20#7 rs2 rs1 0b101#3 rd 0x3B#7)
  | .jal rd imm => .word (uType (immJEnc imm) rd 0x6F#7)
  | .jalr rd rs1 imm => .word (iType imm rs1 0b000#3 rd 0x67#7)
  | .beq rs1 rs2 imm => .word (rType (immBHi imm) rs2 rs1 0b000#3 (immBLo imm) 0x63#7)
  | .bne rs1 rs2 imm => .word (rType (immBHi imm) rs2 rs1 0b001#3 (immBLo imm) 0x63#7)
  | .blt rs1 rs2 imm => .word (rType (immBHi imm) rs2 rs1 0b100#3 (immBLo imm) 0x63#7)
  | .bge rs1 rs2 imm => .word (rType (immBHi imm) rs2 rs1 0b101#3 (immBLo imm) 0x63#7)
  | .bltu rs1 rs2 imm => .word (rType (immBHi imm) rs2 rs1 0b110#3 (immBLo imm) 0x63#7)
  | .bgeu rs1 rs2 imm => .word (rType (immBHi imm) rs2 rs1 0b111#3 (immBLo imm) 0x63#7)
  | .lb rd rs1 imm => .word (iType imm rs1 0b000#3 rd 0x3#7)
  | .lh rd rs1 imm => .word (iType imm rs1 0b001#3 rd 0x3#7)
  | .lw rd rs1 imm => .word (iType imm rs1 0b010#3 rd 0x3#7)
  | .ld rd rs1 imm => .word (iType imm rs1 0b011#3 rd 0x3#7)
  | .lbu rd rs1 imm => .word (iType imm rs1 0b100#3 rd 0x3#7)
  | .lhu rd rs1 imm => .word (iType imm rs1 0b101#3 rd 0x3#7)
  | .lwu rd rs1 imm => .word (iType imm rs1 0b110#3 rd 0x3#7)
  | .sb rs1 rs2 imm => .word (rType (immSHi imm) rs2 rs1 0b000#3 (immSLo imm) 0x23#7)
  | .sh rs1 rs2 imm => .word (rType (immSHi imm) rs2 rs1 0b001#3 (immSLo imm) 0x23#7)
  | .sw rs1 rs2 imm => .word (rType (immSHi imm) rs2 rs1 0b010#3 (immSLo imm) 0x23#7)
  | .sd rs1 rs2 imm => .word (rType (immSHi imm) rs2 rs1 0b011#3 (immSLo imm) 0x23#7)
  | .mul rd rs1 rs2 => .word (rType 0x1#7 rs2 rs1 0b000#3 rd 0x33#7)
  | .mulh rd rs1 rs2 => .word (rType 0x1#7 rs2 rs1 0b001#3 rd 0x33#7)
  | .mulhsu rd rs1 rs2 => .word (rType 0x1#7 rs2 rs1 0b010#3 rd 0x33#7)
  | .mulhu rd rs1 rs2 => .word (rType 0x1#7 rs2 rs1 0b011#3 rd 0x33#7)
  | .div rd rs1 rs2 => .word (rType 0x1#7 rs2 rs1 0b100#3 rd 0x33#7)
  | .divu rd rs1 rs2 => .word (rType 0x1#7 rs2 rs1 0b101#3 rd 0x33#7)
  | .rem rd rs1 rs2 => .word (rType 0x1#7 rs2 rs1 0b110#3 rd 0x33#7)
  | .remu rd rs1 rs2 => .word (rType 0x1#7 rs2 rs1 0b111#3 rd 0x33#7)
  | .mulw rd rs1 rs2 => .word (rType 0x1#7 rs2 rs1 0b000#3 rd 0x3B#7)
  | .divw rd rs1 rs2 => .word (rType 0x1#7 rs2 rs1 0b100#3 rd 0x3B#7)
  | .divuw rd rs1 rs2 => .word (rType 0x1#7 rs2 rs1 0b101#3 rd 0x3B#7)
  | .remw rd rs1 rs2 => .word (rType 0x1#7 rs2 rs1 0b110#3 rd 0x3B#7)
  | .remuw rd rs1 rs2 => .word (rType 0x1#7 rs2 rs1 0b111#3 rd 0x3B#7)
  | .lrW aq rl rd rs1 => .word (amoType 0x2#5 aq rl 0x0#5 rs1 0b010#3 rd 0x2F#7)
  | .scW aq rl rd rs1 rs2 => .word (amoType 0x3#5 aq rl rs2 rs1 0b010#3 rd 0x2F#7)
  | .lrD aq rl rd rs1 => .word (amoType 0x2#5 aq rl 0x0#5 rs1 0b011#3 rd 0x2F#7)
  | .scD aq rl rd rs1 rs2 => .word (amoType 0x3#5 aq rl rs2 rs1 0b011#3 rd 0x2F#7)
  | .amoswapW aq rl rd rs1 rs2 => .word (amoType 0x1#5 aq rl rs2 rs1 0b010#3 rd 0x2F#7)
  | .amoaddW aq rl rd rs1 rs2 => .word (amoType 0x0#5 aq rl rs2 rs1 0b010#3 rd 0x2F#7)
  | .amoxorW aq rl rd rs1 rs2 => .word (amoType 0x4#5 aq rl rs2 rs1 0b010#3 rd 0x2F#7)
  | .amoandW aq rl rd rs1 rs2 => .word (amoType 0xC#5 aq rl rs2 rs1 0b010#3 rd 0x2F#7)
  | .amoorW aq rl rd rs1 rs2 => .word (amoType 0x8#5 aq rl rs2 rs1 0b010#3 rd 0x2F#7)
  | .amominW aq rl rd rs1 rs2 => .word (amoType 0x10#5 aq rl rs2 rs1 0b010#3 rd 0x2F#7)
  | .amomaxW aq rl rd rs1 rs2 => .word (amoType 0x14#5 aq rl rs2 rs1 0b010#3 rd 0x2F#7)
  | .amominuW aq rl rd rs1 rs2 => .word (amoType 0x18#5 aq rl rs2 rs1 0b010#3 rd 0x2F#7)
  | .amomaxuW aq rl rd rs1 rs2 => .word (amoType 0x1C#5 aq rl rs2 rs1 0b010#3 rd 0x2F#7)
  | .amoswapD aq rl rd rs1 rs2 => .word (amoType 0x1#5 aq rl rs2 rs1 0b011#3 rd 0x2F#7)
  | .amoaddD aq rl rd rs1 rs2 => .word (amoType 0x0#5 aq rl rs2 rs1 0b011#3 rd 0x2F#7)
  | .amoxorD aq rl rd rs1 rs2 => .word (amoType 0x4#5 aq rl rs2 rs1 0b011#3 rd 0x2F#7)
  | .amoandD aq rl rd rs1 rs2 => .word (amoType 0xC#5 aq rl rs2 rs1 0b011#3 rd 0x2F#7)
  | .amoorD aq rl rd rs1 rs2 => .word (amoType 0x8#5 aq rl rs2 rs1 0b011#3 rd 0x2F#7)
  | .amominD aq rl rd rs1 rs2 => .word (amoType 0x10#5 aq rl rs2 rs1 0b011#3 rd 0x2F#7)
  | .amomaxD aq rl rd rs1 rs2 => .word (amoType 0x14#5 aq rl rs2 rs1 0b011#3 rd 0x2F#7)
  | .amominuD aq rl rd rs1 rs2 => .word (amoType 0x18#5 aq rl rs2 rs1 0b011#3 rd 0x2F#7)
  | .amomaxuD aq rl rd rs1 rs2 => .word (amoType 0x1C#5 aq rl rs2 rs1 0b011#3 rd 0x2F#7)
  | .flw rd rs1 imm => .word (iType imm rs1 0b010#3 rd 0x7#7)
  | .fsw rs1 rs2 imm => .word (rType (immSHi imm) rs2 rs1 0b010#3 (immSLo imm) 0x27#7)
  | .fmaddS rm rd rs1 rs2 rs3 => .word (r4Type rs3 0b00#2 rs2 rs1 rm rd 0x43#7)
  | .fmsubS rm rd rs1 rs2 rs3 => .word (r4Type rs3 0b00#2 rs2 rs1 rm rd 0x47#7)
  | .fnmsubS rm rd rs1 rs2 rs3 => .word (r4Type rs3 0b00#2 rs2 rs1 rm rd 0x4B#7)
  | .fnmaddS rm rd rs1 rs2 rs3 => .word (r4Type rs3 0b00#2 rs2 rs1 rm rd 0x4F#7)
  | .faddS rm rd rs1 rs2 => .word (rType 0x0#7 rs2 rs1 rm rd 0x53#7)
  | .fsubS rm rd rs1 rs2 => .word (rType 0x4#7 rs2 rs1 rm rd 0x53#7)
  | .fmulS rm rd rs1 rs2 => .word (rType 0x8#7 rs2 rs1 rm rd 0x53#7)
  | .fdivS rm rd rs1 rs2 => .word (rType 0xC#7 rs2 rs1 rm rd 0x53#7)
  | .fsqrtS rm rd rs1 => .word (rType 0x2C#7 0x0#5 rs1 rm rd 0x53#7)
  | .fsgnjS rd rs1 rs2 => .word (rType 0x10#7 rs2 rs1 0b000#3 rd 0x53#7)
  | .fsgnjnS rd rs1 rs2 => .word (rType 0x10#7 rs2 rs1 0b001#3 rd 0x53#7)
  | .fsgnjxS rd rs1 rs2 => .word (rType 0x10#7 rs2 rs1 0b010#3 rd 0x53#7)
  | .fminS rd rs1 rs2 => .word (rType 0x14#7 rs2 rs1 0b000#3 rd 0x53#7)
  | .fmaxS rd rs1 rs2 => .word (rType 0x14#7 rs2 rs1 0b001#3 rd 0x53#7)
  | .fcvtWS rm rd rs1 => .word (rType 0x60#7 0x0#5 rs1 rm rd 0x53#7)
  | .fcvtWuS rm rd rs1 => .word (rType 0x60#7 0x1#5 rs1 rm rd 0x53#7)
  | .fmvXW rd rs1 => .word (rType 0x70#7 0x0#5 rs1 0b000#3 rd 0x53#7)
  | .feqS rd rs1 rs2 => .word (rType 0x50#7 rs2 rs1 0b010#3 rd 0x53#7)
  | .fltS rd rs1 rs2 => .word (rType 0x50#7 rs2 rs1 0b001#3 rd 0x53#7)
  | .fmvWX rd rs1 => .word (rType 0x78#7 0x0#5 rs1 0b000#3 rd 0x53#7)
  | .fleS rd rs1 rs2 => .word (rType 0x50#7 rs2 rs1 0b000#3 rd 0x53#7)
  | .fclassS rd rs1 => .word (rType 0x70#7 0x0#5 rs1 0b001#3 rd 0x53#7)
  | .fcvtSW rm rd rs1 => .word (rType 0x68#7 0x0#5 rs1 rm rd 0x53#7)
  | .fcvtSWu rm rd rs1 => .word (rType 0x68#7 0x1#5 rs1 rm rd 0x53#7)
  | .fcvtLS rm rd rs1 => .word (rType 0x60#7 0x2#5 rs1 rm rd 0x53#7)
  | .fcvtLuS rm rd rs1 => .word (rType 0x60#7 0x3#5 rs1 rm rd 0x53#7)
  | .fcvtSL rm rd rs1 => .word (rType 0x68#7 0x2#5 rs1 rm rd 0x53#7)
  | .fcvtSLu rm rd rs1 => .word (rType 0x68#7 0x3#5 rs1 rm rd 0x53#7)
  | .fld rd rs1 imm => .word (iType imm rs1 0b011#3 rd 0x7#7)
  | .fsd rs1 rs2 imm => .word (rType (immSHi imm) rs2 rs1 0b011#3 (immSLo imm) 0x27#7)
  | .fmaddD rm rd rs1 rs2 rs3 => .word (r4Type rs3 0b01#2 rs2 rs1 rm rd 0x43#7)
  | .fmsubD rm rd rs1 rs2 rs3 => .word (r4Type rs3 0b01#2 rs2 rs1 rm rd 0x47#7)
  | .fnmsubD rm rd rs1 rs2 rs3 => .word (r4Type rs3 0b01#2 rs2 rs1 rm rd 0x4B#7)
  | .fnmaddD rm rd rs1 rs2 rs3 => .word (r4Type rs3 0b01#2 rs2 rs1 rm rd 0x4F#7)
  | .faddD rm rd rs1 rs2 => .word (rType 0x1#7 rs2 rs1 rm rd 0x53#7)
  | .fsubD rm rd rs1 rs2 => .word (rType 0x5#7 rs2 rs1 rm rd 0x53#7)
  | .fmulD rm rd rs1 rs2 => .word (rType 0x9#7 rs2 rs1 rm rd 0x53#7)
  | .fdivD rm rd rs1 rs2 => .word (rType 0xD#7 rs2 rs1 rm rd 0x53#7)
  | .fsqrtD rm rd rs1 => .word (rType 0x2D#7 0x0#5 rs1 rm rd 0x53#7)
  | .fsgnjD rd rs1 rs2 => .word (rType 0x11#7 rs2 rs1 0b000#3 rd 0x53#7)
  | .fsgnjnD rd rs1 rs2 => .word (rType 0x11#7 rs2 rs1 0b001#3 rd 0x53#7)
  | .fsgnjxD rd rs1 rs2 => .word (rType 0x11#7 rs2 rs1 0b010#3 rd 0x53#7)
  | .fminD rd rs1 rs2 => .word (rType 0x15#7 rs2 rs1 0b000#3 rd 0x53#7)
  | .fmaxD rd rs1 rs2 => .word (rType 0x15#7 rs2 rs1 0b001#3 rd 0x53#7)
  | .fcvtSD rm rd rs1 => .word (rType 0x20#7 0x1#5 rs1 rm rd 0x53#7)
  | .fcvtDS rm rd rs1 => .word (rType 0x21#7 0x0#5 rs1 rm rd 0x53#7)
  | .feqD rd rs1 rs2 => .word (rType 0x51#7 rs2 rs1 0b010#3 rd 0x53#7)
  | .fltD rd rs1 rs2 => .word (rType 0x51#7 rs2 rs1 0b001#3 rd 0x53#7)
  | .fleD rd rs1 rs2 => .word (rType 0x51#7 rs2 rs1 0b000#3 rd 0x53#7)
  | .fclassD rd rs1 => .word (rType 0x71#7 0x0#5 rs1 0b001#3 rd 0x53#7)
  | .fcvtWD rm rd rs1 => .word (rType 0x61#7 0x0#5 rs1 rm rd 0x53#7)
  | .fcvtWuD rm rd rs1 => .word (rType 0x61#7 0x1#5 rs1 rm rd 0x53#7)
  | .fcvtDW rm rd rs1 => .word (rType 0x69#7 0x0#5 rs1 rm rd 0x53#7)
  | .fcvtDWu rm rd rs1 => .word (rType 0x69#7 0x1#5 rs1 rm rd 0x53#7)
  | .fcvtLD rm rd rs1 => .word (rType 0x61#7 0x2#5 rs1 rm rd 0x53#7)
  | .fcvtLuD rm rd rs1 => .word (rType 0x61#7 0x3#5 rs1 rm rd 0x53#7)
  | .fmvXD rd rs1 => .word (rType 0x71#7 0x0#5 rs1 0b000#3 rd 0x53#7)
  | .fcvtDL rm rd rs1 => .word (rType 0x69#7 0x2#5 rs1 rm rd 0x53#7)
  | .fcvtDLu rm rd rs1 => .word (rType 0x69#7 0x3#5 rs1 rm rd 0x53#7)
  | .fmvDX rd rs1 => .word (rType 0x79#7 0x0#5 rs1 0b000#3 rd 0x53#7)
  | .ecall => .word (rType 0x0#7 0x0#5 0x0#5 0b000#3 0x0#5 0x73#7)
  | .ebreak => .word (rType 0x0#7 0x1#5 0x0#5 0b000#3 0x0#5 0x73#7)
  | .mret => .word (rType 0x18#7 0x2#5 0x0#5 0b000#3 0x0#5 0x73#7)
  | .sret => .word (rType 0x8#7 0x2#5 0x0#5 0b000#3 0x0#5 0x73#7)
  | .wfi => .word (rType 0x8#7 0x5#5 0x0#5 0b000#3 0x0#5 0x73#7)
  | .sfenceVma rs1 rs2 => .word (rType 0x9#7 rs2 rs1 0b000#3 0x0#5 0x73#7)
  | .fence fm pred succ rs1 rd => .word (fenceType fm pred succ rs1 0b000#3 rd 0xF#7)
  | .fenceI imm rs1 rd => .word (iType imm rs1 0b001#3 rd 0xF#7)
  | .csrrw rd csr rs1 => .word (iType csr rs1 0b001#3 rd 0x73#7)
  | .csrrs rd csr rs1 => .word (iType csr rs1 0b010#3 rd 0x73#7)
  | .csrrc rd csr rs1 => .word (iType csr rs1 0b011#3 rd 0x73#7)
  | .csrrwi rd csr uimm => .word (iType csr uimm 0b101#3 rd 0x73#7)
  | .csrrsi rd csr uimm => .word (iType csr uimm 0b110#3 rd 0x73#7)
  | .csrrci rd csr uimm => .word (iType csr uimm 0b111#3 rd 0x73#7)
  | .cAddi4spn rd' nzuimm => .half (ciwType 0b000#3 (nzuimmEnc nzuimm) rd' 0b00#2)
  | .cFld rd' rs1' uimm => .half (clType 0b001#3 (uimmDHi uimm) rs1' (uimmDLo uimm) rd' 0b00#2)
  | .cLw rd' rs1' uimm => .half (clType 0b010#3 (uimmWHi uimm) rs1' (uimmWLo uimm) rd' 0b00#2)
  | .cLd rd' rs1' uimm => .half (clType 0b011#3 (uimmDHi uimm) rs1' (uimmDLo uimm) rd' 0b00#2)
  | .cFsd rs1' rs2' uimm => .half (clType 0b101#3 (uimmDHi uimm) rs1' (uimmDLo uimm) rs2' 0b00#2)
  | .cSw rs1' rs2' uimm => .half (clType 0b110#3 (uimmWHi uimm) rs1' (uimmWLo uimm) rs2' 0b00#2)
  | .cSd rs1' rs2' uimm => .half (clType 0b111#3 (uimmDHi uimm) rs1' (uimmDLo uimm) rs2' 0b00#2)
  | .cNop nzimm => .half (ciType 0b000#3 (imm6Hi nzimm) 0x0#5 (imm6Lo nzimm) 0b01#2)
  | .cAddi rd nzimm => .half (ciType 0b000#3 (imm6Hi nzimm) rd (imm6Lo nzimm) 0b01#2)
  | .cAddiw rd imm => .half (ciType 0b001#3 (imm6Hi imm) rd (imm6Lo imm) 0b01#2)
  | .cLi rd imm => .half (ciType 0b010#3 (imm6Hi imm) rd (imm6Lo imm) 0b01#2)
  | .cAddi16sp nzimm => .half (ciType 0b011#3 (nzimm16Hi nzimm) 0x2#5 (nzimm16Lo nzimm) 0b01#2)
  | .cLui rd nzimm => .half (ciType 0b011#3 (imm6Hi nzimm) rd (imm6Lo nzimm) 0b01#2)
  | .cSrli rd' shamt => .half (cbType 0b100#3 (imm6Hi shamt) 0b00#2 rd' (imm6Lo shamt) 0b01#2)
  | .cSrai rd' shamt => .half (cbType 0b100#3 (imm6Hi shamt) 0b01#2 rd' (imm6Lo shamt) 0b01#2)
  | .cAndi rd' imm => .half (cbType 0b100#3 (imm6Hi imm) 0b10#2 rd' (imm6Lo imm) 0b01#2)
  | .cSub rd' rs2' => .half (caType 0b100#3 0b0#1 0b11#2 rd' 0b00#2 rs2' 0b01#2)
  | .cXor rd' rs2' => .half (caType 0b100#3 0b0#1 0b11#2 rd' 0b01#2 rs2' 0b01#2)
  | .cOr rd' rs2' => .half (caType 0b100#3 0b0#1 0b11#2 rd' 0b10#2 rs2' 0b01#2)
  | .cAnd rd' rs2' => .half (caType 0b100#3 0b0#1 0b11#2 rd' 0b11#2 rs2' 0b01#2)
  | .cSubw rd' rs2' => .half (caType 0b100#3 0b1#1 0b11#2 rd' 0b00#2 rs2' 0b01#2)
  | .cAddw rd' rs2' => .half (caType 0b100#3 0b1#1 0b11#2 rd' 0b01#2 rs2' 0b01#2)
  | .cJ offset => .half (cjType 0b101#3 (offJEnc offset) 0b01#2)
  | .cBeqz rs1' offset => .half (cbrType 0b110#3 (offBHi offset) rs1' (offBLo offset) 0b01#2)
  | .cBnez rs1' offset => .half (cbrType 0b111#3 (offBHi offset) rs1' (offBLo offset) 0b01#2)
  | .cSlli rd shamt => .half (ciType 0b000#3 (imm6Hi shamt) rd (imm6Lo shamt) 0b10#2)
  | .cFldsp rd uimm => .half (ciType 0b001#3 (uimmDspHi uimm) rd (uimmDspLo uimm) 0b10#2)
  | .cLwsp rd uimm => .half (ciType 0b010#3 (uimmWspHi uimm) rd (uimmWspLo uimm) 0b10#2)
  | .cLdsp rd uimm => .half (ciType 0b011#3 (uimmDspHi uimm) rd (uimmDspLo uimm) 0b10#2)
  | .cJr rs1 => .half (ciType 0b100#3 0b0#1 rs1 0x0#5 0b10#2)
  | .cMv rd rs2 => .half (ciType 0b100#3 0b0#1 rd rs2 0b10#2)
  | .cEbreak => .half (ciType 0b100#3 0b1#1 0x0#5 0x0#5 0b10#2)
  | .cJalr rs1 => .half (ciType 0b100#3 0b1#1 rs1 0x0#5 0b10#2)
  | .cAdd rd rs2 => .half (ciType 0b100#3 0b1#1 rd rs2 0b10#2)
  | .cFsdsp rs2 uimm => .half (cssType 0b101#3 (uimmDssEnc uimm) rs2 0b10#2)
  | .cSwsp rs2 uimm => .half (cssType 0b110#3 (uimmWssEnc uimm) rs2 0b10#2)
  | .cSdsp rs2 uimm => .half (cssType 0b111#3 (uimmDssEnc uimm) rs2 0b10#2)

/-- The bytes of an instruction in memory order. -/
def encodeBytes (i : Instr) : List Byte := (encode i).bytes

/-- The instruction the decoder reads from bits numbered as opcode_table.json numbers them: bit 0 is the least significant
bit of the first parcel. The bytes are laid out as memory holds them (R161), with zeros above nbits. -/
def decodeTableWord (nbits w : Nat) : Option Instr :=
  let v := w % 2 ^ nbits
  let byte (k : Nat) : Byte := BitVec.ofNat 8 (v / 2 ^ (8 * k))
  match decode [byte 0, byte 1, byte 2, byte 3] with
  | .ok (i, _) => some i
  | .error _ => none

end Sys2Proof
end

