-- ==== Sys2Proof/Config.lean ====
section
/-! DEFINITION. What an implementation fixes (spec/00_scope.md R11 to R14) and the free values of the model.

The record is held in State and never changes, so a statement about every state is about every configuration.
The free values are constants with no body: nothing can be proved of what they are. -/
namespace Sys2Proof

/-- A device on the bus: its address range and the access widths it accepts (R170, R172; DEVICE_SIZES and DEVICE_WIDTHS,
D34 and D35). -/
structure DeviceRange where
  base   : Nat
  size   : Nat
  widths : List Nat
  deriving DecidableEq, Repr

/-- Register offsets of the PLIC (PLIC_MAP, D59). -/
structure PlicMap where
  priority  : Nat
  pending   : Nat
  enable    : Nat
  threshold : Nat
  claim     : Nat
  deriving DecidableEq, Repr

/-- Replacement policies of a cache (R284 to R288). Timing only. -/
inductive ReplacementPolicy where
  | lru | plru | fifo | mru | random
  deriving DecidableEq, Repr

/-- Prefetchers of a cache (R290 to R294). Timing only. -/
inductive PrefetcherKind where
  | none | nextLine | stride | stream | tagged
  deriving DecidableEq, Repr

/-- Branch direction predictors (R970). Timing only. -/
inductive PredictorKind where
  | static | gshare | tournament | perceptron | tage
  deriving DecidableEq, Repr

/-- One cache level of the configuration record (R12). Only the line size of the L1 data cache reaches an architectural
value: it is the reservation granule (R530). -/
structure CacheConfig where
  enabled           : Bool
  sizeBytes         : Nat
  lineBytes         : Nat
  ways              : Nat
  policy            : ReplacementPolicy
  latency           : Nat
  prefetcher        : PrefetcherKind
  prefetchTableSize : Nat
  prefetchDegree    : Nat
  deriving DecidableEq, Repr

/-- The branch prediction parameters of the record (R12, D41, D53). Timing only. -/
structure PredictorConfig where
  kind           : PredictorKind
  btbSize        : Nat
  btbWays        : Nat
  rasSize        : Nat
  tableSize      : Nat
  ghistBits      : Nat
  theta          : Nat
  percWeightBits : Nat
  tageTables     : List (Nat × Nat × Nat)   -- per tagged table: history length, entries, tag bits
  resetInterval  : Nat
  tageCtrBits    : Nat
  tageUsefulMax  : Nat
  deriving DecidableEq, Repr

/-- The remaining timing parameters (R12, R14; D54, D56, D64 to D66, D75). -/
structure TimingConfig where
  tRAS             : Nat
  tCAS             : Nat
  tPRE             : Nat
  dramRowBytes     : Nat
  busWidthBytes    : Nat
  busLatencyCycles : Nat
  mulLatency       : Nat
  divLatency       : Nat
  fpLatency        : Nat
  strideThreshold  : Nat
  prngSeed         : Nat
  deriving DecidableEq, Repr

/-- The configuration: the record of R12 with the named open parameters of R14 that are not free values. -/
structure Config where
  width           : Nat                 -- pipeline.width; only 1 is accepted (D2)
  loadBase        : Word                -- the entry point of a flat image (R900)
  ramBase         : Nat
  ramSize         : Nat                 -- RAM_SIZE (D34)
  syscon          : DeviceRange
  clint           : DeviceRange
  plic            : DeviceRange
  uart            : DeviceRange
  virtio          : DeviceRange
  rtc             : Option DeviceRange  -- the source gives no default base (R170)
  plicMap         : PlicMap
  uartIrq         : Nat                 -- IRQ_IDS (D74)
  virtioIrq       : Nat
  tlbSize         : Nat
  mprvTranslates  : Bool                -- MPRV_TRANSLATES (D23)
  wfiWaits        : Bool                -- WFI_WAITS (D21)
  resetX          : Vector Word 32      -- RESET_REGS (D6); entry 0 is not used
  resetF          : Vector Word 32
  l1i             : CacheConfig
  l1d             : CacheConfig
  l2              : CacheConfig
  l3              : CacheConfig
  predictor       : PredictorConfig
  timing          : TimingConfig
  deriving DecidableEq, Repr

namespace Config

/-- The default configuration: the address map of R170, the defaults D21, D23, D53, D56, D59, D64 and D74 name, and for
every parameter the spec leaves without a default the value of log 2 (DESIGN CHOICE). RESET_REGS is 0 (log 3). -/
def default : Config where
  width := 1
  loadBase := 0x80000000#64
  ramBase := 0x80000000
  ramSize := 0x8000000
  syscon := ⟨0x00100000, 0x1000, [1, 2, 4, 8]⟩
  clint := ⟨0x02000000, 0x10000, [4, 8]⟩
  plic := ⟨0x0C000000, 0x4000000, [4]⟩
  uart := ⟨0x10000000, 0x100, [1, 2, 4, 8]⟩
  virtio := ⟨0x10001000, 0x1000, [1, 2, 4, 8]⟩
  rtc := none
  plicMap := ⟨0x0, 0x1000, 0x2080, 0x201000, 0x201004⟩
  uartIrq := 10
  virtioIrq := 1
  tlbSize := 32
  mprvTranslates := false
  wfiWaits := true
  resetX := Vector.replicate 32 0#64
  resetF := Vector.replicate 32 0#64
  l1i := ⟨true, 32768, 64, 4, .lru, 1, .none, 16, 1⟩
  l1d := ⟨true, 32768, 64, 4, .lru, 1, .none, 16, 1⟩
  l2 := ⟨true, 262144, 64, 8, .lru, 10, .none, 16, 1⟩
  l3 := ⟨false, 2097152, 64, 16, .lru, 30, .none, 16, 1⟩
  predictor := ⟨.static, 64, 4, 8, 1024, 10, 32, 8, [], 4096, 3, 3⟩
  timing := ⟨10, 10, 10, 2048, 8, 1, 1, 1, 1, 2, 1⟩

/-- The devices of the map, RAM apart. -/
def devices (c : Config) : List DeviceRange :=
  [c.syscon, c.clint, c.plic, c.uart, c.virtio] ++ c.rtc.toList

/-- The ranges of the map, RAM first: base and size. -/
def ranges (c : Config) : List (Nat × Nat) :=
  (c.ramBase, c.ramSize) :: c.devices.map fun d => (d.base, d.size)

/-- Two address ranges share no byte; an empty range counts as overlapping one it lies strictly inside of, where the spec is
silent (R13; the model's choice, log 2). -/
def disjointRanges (a b : Nat × Nat) : Bool := a.1 + a.2 ≤ b.1 || b.1 + b.2 ≤ a.1

/-- No two ranges of the list overlap. -/
def noOverlap : List (Nat × Nat) → Bool
  | [] => true
  | r :: rs => rs.all (disjointRanges r) && noOverlap rs

/-- A power of two, tested by its bits. -/
def isPowerOfTwo (n : Nat) : Bool := n != 0 && n &&& (n - 1) == 0

/-- A cache level the construction accepts: at least one way, and a power of two of lines and of sets (R281, D54); PLRU
needs a power of two of ways (R285). A disabled level is not checked. A size_bytes that is no multiple of line_bytes · ways is refused:
R281 and D54 do not say that the quotient S is rounded (the model's choice, log 2). -/
def validCache (c : CacheConfig) : Bool :=
  !c.enabled || (1 ≤ c.ways && isPowerOfTwo c.lineBytes && c.sizeBytes % (c.lineBytes * c.ways) == 0 &&
    isPowerOfTwo (c.sizeBytes / (c.lineBytes * c.ways)) && (c.policy != .plru || isPowerOfTwo c.ways))

/-- Configurations the construction accepts (R13, R170): one instruction per stage, no overlapping ranges, ranges inside
the physical space, an even entry point, valid caches. RAM and every device live in [0, 2^64) (R150); that a range which would end
past it is refused, where R13 and R170 name the refusals and not this one, is the model's choice (log 2), and so is that an odd load base is, with
which pc would not be even (R45; log 43). -/
def valid (c : Config) : Bool :=
  c.width == 1 && noOverlap c.ranges && c.ranges.all (fun r => r.1 + r.2 ≤ 2 ^ 64) && c.loadBase.getLsbD 0 == false &&
    validCache c.l1i && validCache c.l1d && validCache c.l2 && validCache c.l3

/-! Free values. Each is applied to the draw counter of State (or to an address) and has no body. -/

/-- RAM_INIT (D71): the byte a RAM address holds when neither the image nor the machine has written it. -/
opaque ramInit : Nat → Byte
/-- The cycles a step takes beyond its first (R110, R985). -/
opaque extraCycles : Nat → Nat
/-- Whether a latched interrupt line still shows the value before a recent device write (R852). -/
opaque lineLate : Nat → Bool
/-- Whether a TLB entry that would hit has been evicted, by draw and position in the TLB (R246). -/
opaque tlbEvicted : Nat → Nat → Bool
/-- Which earlier contents of memory a fetched parcel shows (R264). -/
opaque staleFetch : Nat → Nat
/-- Which earlier contents of the page tables a walk for a fetch shows (R266). -/
opaque staleWalk : Nat → Nat
/-- The PRNG (D65): its next state and value. -/
opaque prngNext : Word → Word
/-- The hash of TAGE (D41): the index in tagged table t for a pc and a history, before it is reduced to the table's size. -/
opaque tageIndex : Nat → Nat → Nat → Nat
/-- The hash of TAGE (D41): the tag in tagged table t for a pc and a history, before it is reduced to the tag's width. -/
opaque tageTag : Nat → Nat → Nat → Nat
/-- What a device register reads as where the spec gives no value (R175). -/
opaque deviceRead : Nat → Word

end Config
end Sys2Proof
end

