-- ==== Sys2Proof/Machine/Memory.lean ====
section
/-! DEFINITION. The written bytes of RAM as plain data in one canonical form (spec/20_memory.md R171).

A memory lists the bytes written since the start of the run, addresses strictly rising. An unlisted address holds no written
byte; what such a byte of RAM reads as is the free value Config.ramInit (D71, log 4), so no entry can equal it by rule and the
canonical form is the order alone. -/
namespace Sys2Proof.Machine

/-- (address, byte) pairs, addresses strictly rising. -/
abbrev Memory := List Host.Cell

namespace Memory

/-- The canonical form: addresses strictly rising. -/
abbrev wf (m : Memory) : Prop := m.Pairwise fun a b => a.1 < b.1

/-- The byte written last at an address, if any. -/
def read? : Memory → Nat → Option Byte
  | [], _ => none
  | (k, b) :: m, a => if k = a then some b else read? m a

/-- Write one byte. -/
def write : Memory → Nat → Byte → Memory
  | [], a, b => [(a, b)]
  | (k, v) :: m, a, b => if a < k then (a, b) :: (k, v) :: m else if a = k then (a, b) :: m else (k, v) :: write m a b

/-- What the n bytes from an address up hold. -/
def readBytes (m : Memory) (a : Nat) : Nat → List (Option Byte)
  | 0 => []
  | n + 1 => m.read? a :: m.readBytes (a + 1) n

/-- Write the low n bytes of v from an address up, little-endian (R160). -/
def writeBytes (m : Memory) (a : Nat) : Nat → BitVec 64 → Memory
  | 0, _ => m
  | n + 1, v => (m.write a (v.extractLsb' 0 8)).writeBytes (a + 1) n (v >>> 8)

/-- Forget the byte at an address. -/
def erase : Memory → Nat → Memory
  | [], _ => []
  | (k, v) :: m, a => if k = a then m else (k, v) :: erase m a

end Memory
end Sys2Proof.Machine
end

