-- ==== Sys2Proof/Machine/Uarch.lean ====
section
/-! DEFINITION. The state of the microarchitecture as plain data (spec/20_memory.md R281, R282; spec/
70_reset_and_hazards.md R920, R970, R982): what State holds for the cycle-level machine of Machine/Pipeline.lean, the second of
the two levels of description of R10. The instruction-level step neither reads nor writes it (R960). -/
namespace Sys2Proof.Machine

/-- The synchronous exceptions (R821). Instruction-address-misaligned (0) can never be raised (R45) and is left out. -/
inductive Exc where
  | instructionAccessFault | illegalInstruction | breakpoint | loadAddressMisaligned | loadAccessFault
  | storeAddressMisaligned | storeAccessFault | ecallFromU | ecallFromS | ecallFromM
  | instructionPageFault | loadPageFault | storePageFault
  deriving DecidableEq, Repr

/-- The branch types (R336). -/
inductive BranchType where
  | cond | call | ret | jump
  deriving DecidableEq, Repr

/-- How a run has ended (R905). -/
inductive RunEnd where
  | shutdown | reboot
  deriving DecidableEq, Repr

/-! ## Tables -/

/-- A table of many like entries: those that differ from their reset value or have been written, keys strictly rising. -/
abbrev Table (α : Type) := List (Nat × α)

namespace Table

/-- The entry at a key, or the reset value. -/
def get {α : Type} (dflt : α) : Table α → Nat → α
  | [], _ => dflt
  | (k, v) :: t, i => if k = i then v else get dflt t i

/-- Write the entry at a key. -/
def set {α : Type} : Table α → Nat → α → Table α
  | [], i, a => [(i, a)]
  | (k, v) :: t, i, a => if i < k then (i, a) :: (k, v) :: t else if i = k then (i, a) :: t else (k, v) :: set t i a

end Table

/-! ## Caches (R281 to R294) -/

/-- The states of a line (R280). -/
inductive LineState where
  | invalid | valid | dirty
  deriving DecidableEq, Repr

/-- A line: tags, no data (R280), and the prefetched bit of the Tagged prefetcher (R293). -/
structure CacheLine where
  tag        : Nat
  state      : LineState
  prefetched : Bool
  deriving DecidableEq, Repr

/-- The replacement metadata of a set (R284 to R288). -/
inductive ReplState where
  /-- LRU and MRU: the ways, least recent first. -/
  | order (ways : List Nat)
  /-- PLRU: bit k of the number is the bit of node k. -/
  | tree (bits : Nat)
  /-- FIFO: the stamp of each way, and the counter. -/
  | stamps (stamps : List Nat) (counter : Nat)
  /-- Random keeps none. -/
  | none
  deriving DecidableEq, Repr

/-- A set: its lines in way order. -/
structure CacheSet where
  lines : List CacheLine
  repl  : ReplState
  deriving DecidableEq, Repr

/-- An entry of the Stride prefetcher (R292). -/
structure StrideEntry where
  pc         : Word
  lastAddr   : Word
  stride     : Word
  confidence : Nat
  deriving DecidableEq, Repr

/-- A cache level: its sets, its prefetcher's tables, its counts of demand lookups (R281, R282, R289). -/
structure Cache where
  sets       : Table CacheSet
  stride     : Table (Option StrideEntry)
  streams    : List Nat               -- last lines of the valid entries, R294
  nextStream : Nat                    -- the entry the next allocation in a full table replaces
  hits       : Nat
  misses     : Nat
  deriving DecidableEq, Repr

/-- The four levels (R281). -/
inductive Level where
  | l1i | l1d | l2 | l3
  deriving DecidableEq, Repr

/-! ## Branch prediction (R970 to R977) -/

/-- An entry of the BTB (R977). -/
structure BtbEntry where
  tag    : Nat
  target : Word
  kind   : BranchType
  deriving DecidableEq, Repr

/-- A perceptron (R975): weight i belongs to history bit i, the most recent outcome being bit 0. -/
structure Perceptron where
  bias    : Int
  weights : Table Int
  deriving DecidableEq, Repr

/-- An entry of a tagged table (R976). -/
structure TageEntry where
  tag     : Nat
  counter : Int
  useful  : Nat
  deriving DecidableEq, Repr

/-- The branch prediction unit. Counters are numbers from 0 to 3 (R970). -/
structure Bpu where
  btb      : Table (List BtbEntry)    -- per set, most recently used first
  ras      : List Word                -- top first
  ghist    : Nat                      -- bit 0 is the most recent outcome
  counters : Table Nat                -- the GShare table, also the global one of Tournament and the base of TAGE
  locals   : Table Nat                -- Tournament
  choosers : Table Nat                -- Tournament
  weights  : Table Perceptron
  tagged   : List (Table (Option TageEntry))
  updates  : Nat                      -- since the last usefulness reset
  deriving DecidableEq, Repr

/-! ## Pipeline latches (R920) -/

/-- A trap an entry carries: the exception and its trap value. -/
structure TrapMark where
  exc  : Exc
  tval : Word
  deriving DecidableEq, Repr

/-- The register an instruction writes or reads. -/
inductive RegName where
  | x (r : Reg)
  | f (r : Reg)
  deriving DecidableEq, Repr

/-- IF→ID: an instruction's bits (none if its fetch faulted), or the fetch trap, and the prediction. -/
structure IfId where
  pc         : Word
  raw        : Option Code
  size       : Word
  predTaken  : Bool
  predTarget : Word
  fetchTrap  : Option TrapMark
  deriving DecidableEq, Repr

/-- ID→EX: the decoded instruction, or none for a trap mark, and its register values rv1, rv2, rv3. -/
structure IdEx where
  pc         : Word
  decoded    : Option Instr
  size       : Word
  rv         : List Word
  predNext   : Word
  trap       : Option TrapMark
  deriving DecidableEq, Repr

/-- EX→MEM. The store data is rv2, which MEM runs the meaning with. -/
structure ExMem where
  pc           : Word
  decoded      : Option Instr
  rv           : List Word
  aluResult    : Word
  flags        : BitVec 5              -- the FP flags raised
  memAddr      : Word
  storeData    : Word
  branchActual : Word                  -- the next pc
  branchTaken  : Bool
  trap         : Option TrapMark
  deriving DecidableEq, Repr

/-- MEM→WB. -/
structure MemWb where
  pc      : Word
  decoded : Option Instr
  wbValue : Word
  dest    : Option RegName
  flags   : BitVec 5
  next    : Word
  trap    : Option TrapMark
  ends    : Option RunEnd              -- the store was one that ends the run (R905)
  deriving DecidableEq, Repr

/-- A stall counter with the finished work it holds back: the cycles the stage still needs before its output latch gets it
(R920, D76). -/
structure Busy (α : Type) where
  remaining : Nat
  out       : α
  deriving DecidableEq, Repr

/-- The event counts of R984 that are not in a cache. -/
structure Stats where
  transfers      : Nat                 -- control transfers resolved
  mispredictions : Nat                 -- R950
  loadUse        : Nat                 -- cycles lost to R931
  stallFetch     : Nat
  stallExecute   : Nat
  stallMemory    : Nat
  deriving DecidableEq, Repr

/-- The state of the microarchitecture. -/
structure Uarch where
  fetchPc   : Word                     -- the pc fetch will use next
  fetchHeld : Bool                     -- fetch has stopped behind a fault or a serializing instruction (R926, R943)
  ifId      : Option IfId
  idEx      : Option IdEx
  exMem     : Option ExMem
  memWb     : Option MemWb
  ifBusy    : Option (Busy IfId)
  exBusy    : Option (Busy ExMem)
  memBusy   : Option (Busy MemWb)
  tickMtip  : Bool                     -- the lines the last tick produced, consumed by the next cycle (R812)
  tickMsip  : Bool
  tickSeip  : Bool
  l1i       : Cache
  l1d       : Cache
  l2        : Cache
  l3        : Cache
  bpu       : Bpu
  openRow   : Option Nat               -- the DRAM's (R982)
  prng      : Word                     -- the single generator's state (R288)
  stats     : Stats
  deriving DecidableEq, Repr

/-- Every line invalid, no prefetcher entry (R281, R282). -/
def Cache.reset : Cache := ⟨[], [], [], 0, 0, 0⟩

/-- The reset state of R970: every table at its reset value. A tagged TAGE table holds no entry, so that none hits before it is
allocated: R970 and D41 give the counter and the usefulness at reset, and no tag or valid bit; that there is no entry is the
model's choice (log 39, DESIGN CHOICE). -/
def Bpu.reset (c : PredictorConfig) : Bpu := ⟨[], [], 0, [], [], [], [], c.tageTables.map fun _ => [], 0⟩

/-- The reset state (R900): every latch a bubble, every stall counter 0, fetch at the entry point, no open row. -/
def Uarch.init (c : Config) : Uarch where
  fetchPc := c.loadBase
  fetchHeld := false
  ifId := none
  idEx := none
  exMem := none
  memWb := none
  ifBusy := none
  exBusy := none
  memBusy := none
  tickMtip := false
  tickMsip := false
  tickSeip := false
  l1i := Cache.reset
  l1d := Cache.reset
  l2 := Cache.reset
  l3 := Cache.reset
  bpu := Bpu.reset c.predictor
  openRow := none
  prng := BitVec.ofNat 64 c.timing.prngSeed
  stats := ⟨0, 0, 0, 0, 0, 0⟩

end Sys2Proof.Machine
end

