-- ==== Sys2Proof/Machine/State.lean ====
section
/-! DEFINITION. Everything the spec gives the machine, as plain data, and its value after reset (spec/10_state.md).

INVENTORY.md lists each piece with its width, its rule and its reset value. -/
namespace Sys2Proof.Machine

/-- Privilege modes (R46, R800). The code 2 is never held. -/
inductive Priv where
  | U | S | M
  deriving DecidableEq, Repr

/-- The writable fields of mstatus (R60). Every other bit of the register is a constant or computed. -/
structure Mstatus where
  sie  : Bool
  mie  : Bool
  spie : Bool
  mpie : Bool
  spp  : Bool        -- true: S
  mpp  : Priv
  fs   : BitVec 2
  mprv : Bool
  sum  : Bool
  mxr  : Bool
  tvm  : Bool
  tw   : Bool
  tsr  : Bool
  deriving DecidableEq, Repr

/-- The CSRs that hold storage of their own (R53). Views and constants are computed in Machine/Csr.lean. -/
structure Csrs where
  fflags     : BitVec 5      -- NV DZ OF UF NX, R49
  frm        : BitVec 3      -- R50
  mstatus    : Mstatus       -- R60
  medeleg    : Word          -- R71
  mideleg    : Word          -- R72
  mie        : Word          -- R73
  ssip       : Bool          -- software bits of mip, R74
  stip       : Bool
  seip       : Bool
  mtvec      : Word          -- R80
  stvec      : Word          -- R81
  mscratch   : Word          -- R82
  sscratch   : Word          -- R83
  mepc       : Word          -- R84
  sepc       : Word          -- R85
  mcause     : Word          -- R86
  scause     : Word          -- R87
  mtval      : Word          -- R88
  stval      : Word          -- R89
  satp       : Word          -- R90
  mcounteren : BitVec 32     -- R100
  scounteren : BitVec 32     -- R101
  mcycle     : Word          -- R110
  minstret   : Word          -- R112
  deriving DecidableEq, Repr

/-- Page sizes of a leaf at level 0, 1 and 2 (R233). -/
inductive PageSize where
  | kib4 | mib2 | gib1
  deriving DecidableEq, Repr

/-- A TLB entry (R241). Being in the list is being valid. The bits of vpn below the page size are 0. -/
structure TlbEntry where
  vpn  : BitVec 27
  asid : BitVec 16
  ppn  : BitVec 44
  r    : Bool
  w    : Bool
  x    : Bool
  u    : Bool
  g    : Bool
  a    : Bool
  d    : Bool
  size : PageSize
  deriving DecidableEq, Repr

/-- The latched interrupt lines (R131). -/
structure Lines where
  mtip : Bool
  msip : Bool
  seip : Bool
  deriving DecidableEq, Repr

/-- The CLINT (R850). -/
structure Clint where
  msip     : Bool
  mtimecmp : Word
  mtime    : Word
  deriving DecidableEq, Repr

/-- The PLIC, with one context for S-mode (R851). Bit i of a bit vector is source i. -/
structure Plic where
  priority  : Vector (BitVec 32) 32
  pending   : BitVec 32
  enable    : BitVec 32
  inService : BitVec 32      -- claimed and not yet completed
  threshold : BitVec 32
  deriving DecidableEq, Repr

/-- The devices of the map (R170). -/
inductive Device where
  | syscon | clint | plic | uart | virtio | rtc
  deriving DecidableEq, Repr

/-- One device access the core made (R174). -/
inductive DevAccess where
  | read  (dev : Device) (offset width : Nat) (value : Word)
  | write (dev : Device) (offset width : Nat) (value : Word)
  deriving DecidableEq, Repr

/-- One store into RAM, by what it overwrote: the bytes that stood from an address up. It is one event, however many bytes it
writes (R183). -/
structure Overwrite where
  addr : Nat
  old  : List (Option Byte)
  deriving DecidableEq, Repr

/-- What happened to the page tables as a walk for a fetch may have missed it (R266): a store, satp rewritten with the same
MODE and ASID, or a partial SFENCE.VMA. -/
inductive WalkEvent where
  | store (what : Overwrite)
  | satp  (old : Word)
  | fence (va : Option Word) (asid : Option (BitVec 16))
  deriving DecidableEq, Repr

/-- What the environment does at one tick or end of a step: raises the UART or VirtIO request (R851, D74), writes RAM by DMA
(D69). -/
structure EnvInput where
  uartIrq   : Bool
  virtioIrq : Bool
  dma       : List Host.Cell
  deriving DecidableEq, Repr

/-- The machine. -/
structure State where
  cfg        : Config
  x          : Vector Word 32     -- R40; entry 0 is never read or written
  f          : Vector Word 32     -- R47
  pc         : Word               -- R44
  priv       : Priv               -- R46
  csr        : Csrs
  resv       : Option Word        -- the reserved granule's address, R130
  lines      : Lines              -- R131
  lineLag    : Nat                -- the model's own, log 6
  itlb       : List TlbEntry      -- most recently used first, R240
  dtlb       : List TlbEntry
  mem        : Memory             -- R171
  fetchLog   : List Overwrite     -- the stores since the last FENCE.I, newest first, R264
  walkLog    : List WalkEvent     -- newest first, R266
  clint      : Clint              -- R850
  plic       : Plic               -- R851
  devLog     : List DevAccess     -- newest first, R174
  inputs     : List EnvInput      -- one is read at each tick and end of a step, log 8
  waiting    : Bool               -- in WFI, R704
  atBoundary : Bool               -- an interrupt may be taken now, R813
  ended      : Option RunEnd      -- R905
  draws      : Nat                -- the model's own: the next free value's index
  exact      : Bool               -- the model's own: inside a cycle of Machine/Pipeline.lean, log 1
  uarch      : Uarch              -- R134, R920
  deriving DecidableEq, Repr

/-- A segment of an image: its physical address, its bytes in the file, and its size in memory (R901). -/
structure Segment where
  addr    : Nat
  bytes   : List Byte
  memSize : Nat
  deriving DecidableEq, Repr

/-- Reasons for which the machine stops. -/
inductive Fault where
  /-- Raised by step when a store to syscon has ended the run (R905, D44): nothing after it is modelled. Safe: the final
  state is the state before this step, and no younger instruction runs. -/
  | runEnded (how : RunEnd)
  deriving DecidableEq, Repr

/-- Reasons for which an instruction has no meaning here. -/
inductive Refusal where
  /-- Raised by an arm of exec for an instruction not modelled yet; no arm does. Safe. -/
  | notModelled (mnemonic : String)
  deriving DecidableEq, Repr

/-- mstatus after reset: 0x0000_000A_0000_2000 (R60): FS = 1, all other writable fields 0. -/
def Mstatus.reset : Mstatus where
  sie := false
  mie := false
  spie := false
  mpie := false
  spp := false
  mpp := .U
  fs := 1#2
  mprv := false
  sum := false
  mxr := false
  tvm := false
  tw := false
  tsr := false

/-- The CSRs after reset (R53, R140). -/
def Csrs.reset : Csrs where
  fflags := 0
  frm := 0
  mstatus := Mstatus.reset
  medeleg := 0
  mideleg := 0
  mie := 0
  ssip := false
  stip := false
  seip := false
  mtvec := 0
  stvec := 0
  mscratch := 0
  sscratch := 0
  mepc := 0
  sepc := 0
  mcause := 0
  scause := 0
  mtval := 0
  stval := 0
  satp := 0
  mcounteren := 0
  scounteren := 0
  mcycle := 0
  minstret := 0

/-- The state after reset under a configuration (R140, R900). -/
def State.init (cfg : Config) : State where
  cfg := cfg
  x := cfg.resetX
  f := cfg.resetF
  pc := cfg.loadBase
  priv := .M
  csr := Csrs.reset
  resv := none
  lines := ⟨false, false, false⟩
  lineLag := 0
  itlb := []
  dtlb := []
  mem := []
  fetchLog := []
  walkLog := []
  clint := ⟨false, 0, 0⟩
  plic := ⟨Vector.replicate 32 0#32, 0, 0, 0, 0⟩
  devLog := []
  inputs := []
  waiting := false
  atBoundary := false
  ended := none
  draws := 0
  exact := false
  uarch := Uarch.init cfg

/-- What is loaded before a run (R901): a flat image, placed at the load base, or the loadable segments of an ELF file with its
entry point. -/
inductive Image where
  | flat (bytes : List Byte)
  | elf (entry : Word) (segments : List Segment)
  deriving DecidableEq, Repr

/-- The initial state of a configuration, if the construction accepts it (R13). -/
def State.initial? (cfg : Config) : Option State := if cfg.valid then some (State.init cfg) else none

/-- The machine right after reset, under the default configuration. -/
def State.reset : State := State.init Config.default

end Sys2Proof.Machine
end

