-- ==== Sys2Proof/Machine/Ops.lean ====
section
/-! DEFINITION. The named operations over registers and memory, taking a trap (spec/60_exceptions.md R830 to R833) and
returning from one (spec/47_system.md R702, R703). -/
namespace Sys2Proof.Machine

/-- The outcome of one step of this machine. -/
abbrev Result := Host.Outcome State Fault Refusal

/-! ## Privilege -/

/-- The code of a mode, as MPP holds it (R46). -/
def Priv.code : Priv → BitVec 2
  | .U => 0#2
  | .S => 1#2
  | .M => 3#2

/-- The mode of a code; the reserved code 2 has none (R60). -/
def Priv.ofCode? (c : BitVec 2) : Option Priv :=
  if c = 0#2 then some .U else if c = 1#2 then some .S else if c = 3#2 then some .M else none

/-! ## Causes (R820, R821) -/

/-- The exception codes (R821). -/
def Exc.code : Exc → Nat
  | .instructionAccessFault => 1
  | .illegalInstruction => 2
  | .breakpoint => 3
  | .loadAddressMisaligned => 4
  | .loadAccessFault => 5
  | .storeAddressMisaligned => 6
  | .storeAccessFault => 7
  | .ecallFromU => 8
  | .ecallFromS => 9
  | .ecallFromM => 11
  | .instructionPageFault => 12
  | .loadPageFault => 13
  | .storePageFault => 15

/-- The interrupts (R810). -/
inductive Irq where
  | ssi | msi | sti | mti | sei | mei
  deriving DecidableEq, Repr

/-- The interrupt codes (R820), which are also their bits in mip, mie and mideleg. -/
def Irq.code : Irq → Nat
  | .ssi => 1
  | .msi => 3
  | .sti => 5
  | .mti => 7
  | .sei => 9
  | .mei => 11

/-- What a trap is taken for. -/
inductive TrapCause where
  | exception (e : Exc)
  | interrupt (i : Irq)
  deriving DecidableEq, Repr

/-- The value mcause or scause gets: bit 63 is the Interrupt flag (R86). -/
def TrapCause.value : TrapCause → Word
  | .exception e => BitVec.ofNat 64 e.code
  | .interrupt i => BitVec.ofNat 64 (2 ^ 63 + i.code)

namespace State

/-! ## Registers -/

/-- Read integer register r; x0 reads 0 (R41). -/
def readX (s : State) (r : Reg) : Word := if r = 0#5 then 0#64 else s.x[r.toNat]

/-- Write integer register r; a write to x0 is discarded (R41). -/
def writeX (s : State) (r : Reg) (v : Word) : State := if r = 0#5 then s else { s with x := s.x.set r.toNat v }

/-- Read FP register r (R47). -/
def readF (s : State) (r : Reg) : Word := s.f[r.toNat]

/-- Set the FS field to Dirty (R62(b)). -/
def dirtyFp (s : State) : State := { s with csr := { s.csr with mstatus := { s.csr.mstatus with fs := 3#2 } } }

/-- Write FP register r; this makes the FP state Dirty (R47, R62(b)). -/
def writeF (s : State) (r : Reg) (v : Word) : State := 
  State.dirtyFp { s with f := s.f.set r.toNat v }

/-- Retire the current instruction: minstret counts it (R112), execution goes on at the target (R44), and the end of the
instruction is a boundary where an interrupt may be taken (R813). -/
def retireTo (s : State) (target : Word) : State :=
  { s with pc := target, csr := { s.csr with minstret := s.csr.minstret + 1#64 }, atBoundary := true }

/-- An instruction of `size` bytes whose effect is the value v in integer register rd (R400). -/
def result (s : State) (rd : Reg) (v size : Word) : Result := .next ((s.writeX rd v).retireTo (s.pc + size))

/-- The state that has used the free values of index draws. -/
def useDraw (s : State) : State := { s with draws := s.draws + 1 }

/-! ## RAM -/

/-- An access of n bytes at a whose bytes all lie in RAM (R171). -/
def inRam (cfg : Config) (a n : Nat) : Bool := cfg.ramBase ≤ a && a + n ≤ cfg.ramBase + cfg.ramSize

/-- The byte of RAM at an address: the byte written last, else the free value RAM_INIT (R171, D71). -/
def byteAt (s : State) (a : Nat) : Byte :=
  match s.mem.read? a with
  | some b => b
  | none => Config.ramInit a

/-- n bytes from a upward, assembled little-endian (R160). -/
def ramValue (s : State) (a : Nat) : Nat → Word
  | 0 => 0#64
  | n + 1 => (s.ramValue (a + 1) n <<< 8) ||| (s.byteAt a).setWidth 64

/-- The n bytes from a up give way to those of another memory, in one indivisible store (R183). What they were is kept, for the
fetches and the walks for fetches that may not see the store yet (R264, R266; log 10, log 11). -/
def overwrite (s : State) (a n : Nat) (m : Memory) : State :=
  let o : Overwrite := ⟨a, s.mem.readBytes a n⟩
  { s with mem := m, fetchLog := o :: s.fetchLog, walkLog := .store o :: s.walkLog }

/-- Write one byte of RAM. -/
def writeByte (s : State) (a : Nat) (b : Byte) : State := s.overwrite a 1 (s.mem.write a b)

/-- Write the low n bytes of v from a upward, little-endian, as one store (R160, R183). -/
def writeRam (s : State) (a n : Nat) (v : Word) : State := s.overwrite a n (s.mem.writeBytes a n v)

/-- The byte at an address before a store, given what it was after it. -/
def byteBeforeStore (o : Overwrite) (a : Nat) (now : Byte) : Byte :=
  if a < o.addr then now
  else
    match o.old[a - o.addr]? with
    | some old => old.getD (Config.ramInit a)
    | none => now

/-! ## Taking a trap -/

/-- The mode a trap goes to (R831): never below the current one, S only if delegated. -/
def trapTarget (s : State) (c : TrapCause) : Priv :=
  if s.priv = .M then .M
  else
    match c with
    | .exception e => if s.csr.medeleg.getLsbD e.code then .S else .M
    | .interrupt i => if s.csr.mideleg.getLsbD i.code then .S else .M

/-- The handler's address (R833): an interrupt is vectored if the MODE field is 1. -/
def trapVector (tvec : Word) (c : TrapCause) : Word :=
  let base := tvec &&& ~~~3#64
  match c with
  | .exception _ => base
  | .interrupt i => if tvec.extractLsb' 0 2 = 1#2 then base + BitVec.ofNat 64 (4 * i.code) else base

/-- Trap entry into M-mode (R830). -/
def enterM (s : State) (c : TrapCause) (epc tval : Word) : State :=
  { s with
    csr := { s.csr with
      mepc := epc &&& ~~~1#64
      mcause := c.value
      mtval := tval
      mstatus := { s.csr.mstatus with mpie := s.csr.mstatus.mie, mie := false, mpp := s.priv } }
    priv := .M
    pc := trapVector s.csr.mtvec c
    resv := none
    atBoundary := false }

/-- Trap entry into S-mode (R830). -/
def enterS (s : State) (c : TrapCause) (epc tval : Word) : State :=
  { s with
    csr := { s.csr with
      sepc := epc &&& ~~~1#64
      scause := c.value
      stval := tval
      mstatus := { s.csr.mstatus with spie := s.csr.mstatus.sie, sie := false, spp := decide (s.priv = .S) } }
    priv := .S
    pc := trapVector s.csr.stvec c
    resv := none
    atBoundary := false }

/-- Taking a trap, exception or interrupt (R830): the one operation every trap goes through. No interrupt is taken at the
boundary that delivered it (R813 step 2, log 7). -/
def enterTrap (s : State) (c : TrapCause) (epc tval : Word) : State :=
  match s.trapTarget c with
  | .S => s.enterS c epc tval
  | _ => s.enterM c epc tval

/-- The current instruction raises an exception: it has no other effect, and epc is its own pc (R19, R832). -/
def raiseExc (s : State) (e : Exc) (tval : Word) : Result := .next (s.enterTrap (.exception e) s.pc tval)

/-- The current instruction is illegal: the trap value is its bits (R822, R330). -/
def illegal (s : State) (bits : Word) : Result := s.raiseExc .illegalInstruction bits

/-! ## Returning from a trap -/

/-- The effect of MRET in M-mode (R702). -/
def returnM (s : State) : State :=
  let m := s.csr.mstatus
  let t : State := { s with
    csr := { s.csr with
      mstatus := { m with mie := m.mpie, mpie := true, mpp := .U, mprv := if m.mpp = .M then m.mprv else false } }
    priv := m.mpp }
  t.retireTo s.csr.mepc

/-- The effect of SRET where it is allowed (R703). -/
def returnS (s : State) : State :=
  let m := s.csr.mstatus
  let t : State := { s with
    csr := { s.csr with mstatus := { m with sie := m.spie, spie := true, spp := false, mprv := false } }
    priv := if m.spp then .S else .U }
  t.retireTo s.csr.sepc

end State

/-! ## Accesses that may raise -/

/-- The outcome of a part of an instruction: a value and the state so far, or the one exception the instruction reports.
An exception carries no state: whatever the instruction did before is discarded (R19). -/
inductive Res (α : Type) where
  | ok (a : α) (s : State)
  | raise (e : Exc) (tval : Word)
  deriving DecidableEq, Repr

/-- Go on unless an exception was raised. -/
def Res.bind {α β : Type} (r : Res α) (k : α → State → Res β) : Res β :=
  match r with
  | .ok a s => k a s
  | .raise e tval => .raise e tval

/-- The result of an instruction that began in s: its last state, or its exception taken from s. -/
def Res.deliver (s : State) (r : Res Unit) : Result :=
  match r with
  | .ok _ s' => .next s'
  | .raise e tval => s.raiseExc e tval

end Sys2Proof.Machine
end

