-- ==== Sys2Proof/Machine/Bus.lean ====
section
/-! DEFINITION. The bus (spec/20_memory.md R170 to R175) and the devices behind it as the core sees them: the CLINT and the
PLIC (spec/60_exceptions.md R850, R851), syscon (spec/70_reset_and_hazards.md R905), and devices whose registers the spec does
not describe. -/
namespace Sys2Proof.Machine

/-! ## CLINT (R850, D58) -/

/-- Replace byte k of a word. -/
def setByte (w : Word) (k : Nat) (b : Byte) : Word :=
  (w &&& ~~~(0xFF#64 <<< (8 * k))) ||| (b.setWidth 64 <<< (8 * k))

namespace Clint

/-- The timer line: mtime ≥ mtimecmp, unsigned (R850). -/
def timerLine (c : Clint) : Bool := c.mtimecmp ≤ c.mtime

/-- The byte at an offset. Offsets that hold no register read as a free value (log 13). -/
def byte (c : Clint) (free : Word) (off : Nat) : Byte :=
  if off = 0 then (BitVec.ofBool c.msip).setWidth 8
  else if off < 4 then 0#8
  else if 0x4000 ≤ off && off < 0x4008 then c.mtimecmp.extractLsb' (8 * (off - 0x4000)) 8
  else if 0xBFF8 ≤ off && off < 0xC000 then c.mtime.extractLsb' (8 * (off - 0xBFF8)) 8
  else free.extractLsb' 0 8

/-- n bytes from an offset. -/
def read (c : Clint) (free : Word) (off : Nat) : Nat → Word
  | 0 => 0#64
  | n + 1 => (c.read (free >>> 8) (off + 1) n <<< 8) ||| (c.byte free off).setWidth 64

/-- Write the byte at an offset; an offset that holds no register ignores it (log 13). -/
def writeByte (c : Clint) (off : Nat) (b : Byte) : Clint :=
  if off = 0 then { c with msip := b.getLsbD 0 }
  else if 0x4000 ≤ off && off < 0x4008 then { c with mtimecmp := setByte c.mtimecmp (off - 0x4000) b }
  else if 0xBFF8 ≤ off && off < 0xC000 then { c with mtime := setByte c.mtime (off - 0xBFF8) b }
  else c

/-- Write n bytes from an offset. -/
def write (c : Clint) (off : Nat) : Nat → Word → Clint
  | 0, _ => c
  | n + 1, v => (c.writeByte off (v.extractLsb' 0 8)).write (off + 1) n (v >>> 8)

end Clint

/-! ## PLIC (R851, D59) -/

namespace Plic

/-- The priority of a source. -/
def priorityOf (p : Plic) (id : Nat) : BitVec 32 := (p.priority[id]?).getD 0#32

/-- A source asks for the hart: pending, enabled, priority above the threshold. Source 0 does not exist (D74). -/
def qualifies (p : Plic) (id : Nat) : Bool :=
  id != 0 && p.pending.getLsbD id && p.enable.getLsbD id && p.threshold < p.priorityOf id

/-- The output, which drives the S-mode external line (D11). -/
def output (p : Plic) : Bool := (List.range 32).any p.qualifies

/-- The source a claim returns: the highest priority, the lowest id breaking ties; 0 if there is none. -/
def best (p : Plic) : Nat :=
  (List.range 32).foldl
    (fun best id => if p.qualifies id && (best == 0 || p.priorityOf best < p.priorityOf id) then id else best) 0

/-- One bit of a source set. -/
def bit (id : Nat) : BitVec 32 := 1#32 <<< id

/-- A claim: the source's pending bit is cleared, and the source is in service until it is completed. -/
def claim (p : Plic) : Nat × Plic :=
  let id := p.best
  if id = 0 then (0, p) else (id, { p with pending := p.pending &&& ~~~bit id, inService := p.inService ||| bit id })

/-- A completion re-arms the source. -/
def complete (p : Plic) (id : Nat) : Plic := { p with inService := p.inService &&& ~~~bit id }

/-- A device's request sets the pending bit of its source, unless the source is in service. The bit stays until a claim takes it,
whatever the device's request does afterwards: whether a source is level or edge sensitive is not in the spec, and this is the
model's choice (R851, log 14). A request of source 0 or of a source of 32 or more, which IRQ_IDS may name, sets no bit and so
never interrupts: the spec gives no bound on the ids (R14, D74; the model's choice, log 14). -/
def request (p : Plic) (id : Nat) : Plic :=
  if id = 0 || p.inService.getLsbD id then p else { p with pending := p.pending ||| bit id }

/-- A read. Offsets that hold no register read as a free value. PLIC_MAP is open (D59), and Config.valid accepts one whose registers
coincide or overlap: the first of claim, threshold, enable, pending and priority then answers (the model's choices, log 14). -/
def read (p : Plic) (m : PlicMap) (free : Word) (off : Nat) : Word × Plic :=
  if off = m.claim then
    let c := p.claim
    (BitVec.ofNat 64 c.1, c.2)
  else if off = m.threshold then (p.threshold.setWidth 64, p)
  else if off = m.enable then (p.enable.setWidth 64, p)
  else if off = m.pending then (p.pending.setWidth 64, p)
  else if m.priority ≤ off && off < m.priority + 128 && (off - m.priority) % 4 == 0 then
    ((p.priorityOf ((off - m.priority) / 4)).setWidth 64, p)
  else ((free.setWidth 32).setWidth 64, p)

/-- A write of a value, which a narrow access extends with zeros. The pending bits, source 0 and offsets that hold no register
ignore it. The spec gives no width for a priority or the threshold (R851, D59): all 32 bits are kept, read back and compared.
Where registers of PLIC_MAP coincide or overlap, the first of claim, threshold, enable, pending and priority takes the write (the
model's choices, log 14). -/
def write (p : Plic) (m : PlicMap) (off : Nat) (v : BitVec 32) : Plic :=
  if off = m.claim then p.complete v.toNat
  else if off = m.threshold then { p with threshold := v }
  else if off = m.enable then { p with enable := v &&& ~~~1#32 }
  else if off = m.pending then p
  else if m.priority < off && off < m.priority + 128 && (off - m.priority) % 4 == 0 then
    { p with priority := p.priority.setIfInBounds ((off - m.priority) / 4) v }
  else p

end Plic

/-! ## The bus -/

/-- Who owns an address (R172). -/
inductive Owner where
  | ram
  | device (d : Device) (range : DeviceRange)
  deriving DecidableEq, Repr

/-- The range holds the address. -/
def holds (base size a : Nat) : Bool := base ≤ a && a < base + size

/-- The owner of the address an access begins at (R172, R173). -/
def ownerOf (c : Config) (a : Nat) : Option Owner :=
  if holds c.ramBase c.ramSize a then some .ram
  else if holds c.clint.base c.clint.size a then some (.device .clint c.clint)
  else if holds c.plic.base c.plic.size a then some (.device .plic c.plic)
  else if holds c.uart.base c.uart.size a then some (.device .uart c.uart)
  else if holds c.virtio.base c.virtio.size a then some (.device .virtio c.virtio)
  else if holds c.syscon.base c.syscon.size a then some (.device .syscon c.syscon)
  else
    match c.rtc with
    | some r => if holds r.base r.size a then some (.device .rtc r) else none
    | none => none

/-- The device accepts an access of n bytes at a: its width is one of the device's, and it ends inside the range (D35). -/
def accepts (r : DeviceRange) (a n : Nat) : Bool := r.widths.contains n && a + n ≤ r.base + r.size

/-- The low n bytes of a value. -/
def lowBytes (n : Nat) (v : Word) : Word := v &&& BitVec.ofNat 64 (2 ^ (8 * n) - 1)

namespace State

/-- What a device read answers, and the device after it (R174). The CLINT and the PLIC answer their registers; the spec gives
no value for the others, whose reads are free values (R175, log 12). -/
def deviceAnswer (s : State) (d : Device) (off n : Nat) : Word × State :=
  let free := Config.deviceRead s.draws
  match d with
  | .clint => (s.clint.read free off n, s.useDraw)
  | .plic =>
    let answer := s.plic.read s.cfg.plicMap free off
    (lowBytes n answer.1, { s.useDraw with plic := answer.2, lineLag := 3 })
  | _ => (lowBytes n free, s.useDraw)

/-- A device read: performed once and recorded. -/
def deviceRead (s : State) (d : Device) (off n : Nat) : Word × State :=
  let answer := s.deviceAnswer d off n
  (answer.1, { answer.2 with devLog := .read d off n answer.1 :: answer.2.devLog })

/-- What a device write of the low n bytes of v does besides being recorded (R201). The end of a run is a store to syscon
offset 0 whose low 16 bits are 0x5555 or 0x7777 (R905, D44), and R905 does not say which instructions count as stores: here the
writes of AMOs and SCs do, and the A and D updates of walks do not, State.updatePte (the model's choice, log 15). UART, VirtIO and RTC writes have no effect the core sees
(log 12). -/
def deviceEffect (s : State) (d : Device) (off n : Nat) (v : Word) : State :=
  match d with
  | .clint => { s with clint := s.clint.write off n v, lineLag := 3 }
  | .plic => { s with plic := s.plic.write s.cfg.plicMap off ((lowBytes n v).setWidth 32), lineLag := 3 }
  | .syscon =>
    if off = 0 && 2 ≤ n then
      if v.extractLsb' 0 16 = 0x5555#16 then { s with ended := some .shutdown }
      else if v.extractLsb' 0 16 = 0x7777#16 then { s with ended := some .reboot }
      else s
    else s
  | _ => s

/-- A device write: performed once and recorded. -/
def deviceWrite (s : State) (d : Device) (off n : Nat) (v : Word) : State :=
  let t := s.deviceEffect d off n v
  { t with devLog := .write d off n (lowBytes n v) :: t.devLog }

/-- BusRead (R172): n bytes at a physical address, or none for Err: no owner, an access beyond the owner's end, or a width
the device does not accept (R173). -/
def busRead (s : State) (pa : Word) (n : Nat) : Option (Word × State) :=
  match ownerOf s.cfg pa.toNat with
  | none => none
  | some .ram => if inRam s.cfg pa.toNat n then some (s.ramValue pa.toNat n, s) else none
  | some (.device d r) => if accepts r pa.toNat n then some (s.deviceRead d (pa.toNat - r.base) n) else none

/-- BusWrite (R172): the low n bytes of v at a physical address, or none for Err. -/
def busWrite (s : State) (pa : Word) (n : Nat) (v : Word) : Option State :=
  match ownerOf s.cfg pa.toNat with
  | none => none
  | some .ram => if inRam s.cfg pa.toNat n then some (s.writeRam pa.toNat n v) else none
  | some (.device d r) => if accepts r pa.toNat n then some (s.deviceWrite d (pa.toNat - r.base) n v) else none

/-! ## The interrupt lines (R812) -/

/-- The lines as the devices drive them now. -/
def drivenLines (s : State) : Lines := ⟨s.clint.timerLine, s.clint.msip, s.plic.output⟩

/-- The lines were `before`: a change since then may show only at the second tick from now (R812, R924, log 6). -/
def noteLines (s : State) (before : Lines) : State :=
  { s with lineLag := if s.drivenLines = before then s.lineLag else max s.lineLag 2 }

/-- A tick has passed since the lines were `before`: a change made by the tick itself may show only at the second one after it,
and an earlier change is one tick older (R812, R924, log 6). -/
def ageLines (s : State) (before : Lines) : State := State.noteLines { s with lineLag := s.lineLag - 1 } before

/-- Latch the lines. While a change may be too new to show, the latch may still hold the value before it (R812, R852,
log 6). -/
def latchLines (s : State) : State :=
  if s.lineLag = 0 then { s with lines := s.drivenLines }
  else if Config.lineLate s.draws then s.useDraw
  else { s.useDraw with lines := s.drivenLines }

end State
end Sys2Proof.Machine
end

