-- ==== Sys2Proof/Machine/Csr.lean ====
section
/-! DEFINITION. The control and status registers (spec/10_state.md R52 to R115): the address map, reads, legalised writes and
the access check (spec/47_system.md R711); and which interrupt is taken (spec/60_exceptions.md R811, R814). -/
namespace Sys2Proof.Machine

/-- The implemented CSRs (R53). A number stands in a family for the index n of mhpmevent<n> and its like. -/
inductive CsrName where
  | fflags | frm | fcsr
  | sstatus | sie | stvec | scounteren | sscratch | sepc | scause | stval | sip | satp
  | mstatus | misa | medeleg | mideleg | mie | mtvec | mcounteren | mcountinhibit
  | mhpmevent (n : Nat)
  | mscratch | mepc | mcause | mtval | mip
  | pmpcfg (n : Nat) | pmpaddr (n : Nat)
  | mcycle | minstret | mhpmcounter (n : Nat)
  | cycle | time | instret | hpmcounter (n : Nat)
  | mvendorid | marchid | mimpid | mhartid | mconfigptr
  deriving DecidableEq, Repr

/-- The CSR at an address, if the core implements one (R53). -/
def csrOf (a : BitVec 12) : Option CsrName :=
  match a with
  | 0x001#12 => some .fflags
  | 0x002#12 => some .frm
  | 0x003#12 => some .fcsr
  | 0x100#12 => some .sstatus
  | 0x104#12 => some .sie
  | 0x105#12 => some .stvec
  | 0x106#12 => some .scounteren
  | 0x140#12 => some .sscratch
  | 0x141#12 => some .sepc
  | 0x142#12 => some .scause
  | 0x143#12 => some .stval
  | 0x144#12 => some .sip
  | 0x180#12 => some .satp
  | 0x300#12 => some .mstatus
  | 0x301#12 => some .misa
  | 0x302#12 => some .medeleg
  | 0x303#12 => some .mideleg
  | 0x304#12 => some .mie
  | 0x305#12 => some .mtvec
  | 0x306#12 => some .mcounteren
  | 0x320#12 => some .mcountinhibit
  | 0x340#12 => some .mscratch
  | 0x341#12 => some .mepc
  | 0x342#12 => some .mcause
  | 0x343#12 => some .mtval
  | 0x344#12 => some .mip
  | 0xB00#12 => some .mcycle
  | 0xB02#12 => some .minstret
  | 0xC00#12 => some .cycle
  | 0xC01#12 => some .time
  | 0xC02#12 => some .instret
  | 0xF11#12 => some .mvendorid
  | 0xF12#12 => some .marchid
  | 0xF13#12 => some .mimpid
  | 0xF14#12 => some .mhartid
  | 0xF15#12 => some .mconfigptr
  | _ =>
    let n := a.toNat
    if 0x323 ≤ n && n ≤ 0x33F then some (.mhpmevent (n - 0x320))
    else if 0x3A0 ≤ n && n ≤ 0x3AE && n % 2 == 0 then some (.pmpcfg (n - 0x3A0))
    else if 0x3B0 ≤ n && n ≤ 0x3EF then some (.pmpaddr (n - 0x3B0))
    else if 0xB03 ≤ n && n ≤ 0xB1F then some (.mhpmcounter (n - 0xB00))
    else if 0xC03 ≤ n && n ≤ 0xC1F then some (.hpmcounter (n - 0xC00))
    else none

/-! ## mstatus and sstatus (R60, R61) -/

namespace Mstatus

/-- SD: FS is Dirty (R60). -/
def sd (m : Mstatus) : Bool := m.fs == 3#2

/-- The value mstatus reads as (R60), bit 63 first. -/
def toWord (m : Mstatus) : Word :=
  BitVec.ofBool m.sd ++ 0#25 ++ 0#1 ++ 0#1 ++ 2#2 ++ 2#2 ++ 0#9 ++ BitVec.ofBool m.tsr ++ BitVec.ofBool m.tw ++
    BitVec.ofBool m.tvm ++ BitVec.ofBool m.mxr ++ BitVec.ofBool m.sum ++ BitVec.ofBool m.mprv ++ 0#2 ++ m.fs ++ m.mpp.code ++
    0#2 ++ BitVec.ofBool m.spp ++ BitVec.ofBool m.mpie ++ 0#1 ++ BitVec.ofBool m.spie ++ 0#1 ++ BitVec.ofBool m.mie ++ 0#1 ++
    BitVec.ofBool m.sie ++ 0#1

/-- The fields after mstatus is written; a write of 2 to MPP leaves MPP (R60, D50). -/
def write (m : Mstatus) (v : Word) : Mstatus where
  sie := v.getLsbD 1
  mie := v.getLsbD 3
  spie := v.getLsbD 5
  mpie := v.getLsbD 7
  spp := v.getLsbD 8
  mpp := (Priv.ofCode? (v.extractLsb' 11 2)).getD m.mpp
  fs := v.extractLsb' 13 2
  mprv := v.getLsbD 17
  sum := v.getLsbD 18
  mxr := v.getLsbD 19
  tvm := v.getLsbD 20
  tw := v.getLsbD 21
  tsr := v.getLsbD 22

/-- The bits of mstatus that sstatus shows (R61). -/
def sstatusMask : Word := 0x80000003000DE762#64

/-- The value sstatus reads as. -/
def toSstatus (m : Mstatus) : Word := m.toWord &&& sstatusMask

/-- The fields after sstatus is written (R61). -/
def writeSstatus (m : Mstatus) (v : Word) : Mstatus :=
  { m with
    sie := v.getLsbD 1
    spie := v.getLsbD 5
    spp := v.getLsbD 8
    fs := v.extractLsb' 13 2
    sum := v.getLsbD 18
    mxr := v.getLsbD 19 }

end Mstatus

/-! ## Constants and masks -/

/-- misa: XLEN 64, A C D F I M S U (R70). -/
def misaValue : Word := 0x800000000014112D#64
/-- The delegable exceptions (R71). -/
def medelegMask : Word := 0xB3FF#64
/-- The delegable interrupts (R72). -/
def midelegMask : Word := 0x222#64
/-- The interrupt enables (R73). -/
def mieMask : Word := 0xAAA#64

/-- The MODE field of satp (R90). -/
def satpMode (satp : Word) : BitVec 4 := satp.extractLsb' 60 4
/-- The ASID field of satp (R90). -/
def satpAsid (satp : Word) : BitVec 16 := satp.extractLsb' 44 16
/-- The PPN field of satp (R90). -/
def satpPpn (satp : Word) : BitVec 44 := satp.extractLsb' 0 44

/-- The MODE values satp may hold: Bare and Sv39 (R90). -/
def legalSatp (v : Word) : Bool := satpMode v == 0#4 || satpMode v == 8#4

/-- The MODE values mtvec and stvec may hold: Direct and Vectored (R80). -/
def legalTvec (v : Word) : Bool := v.extractLsb' 0 2 == 0#2 || v.extractLsb' 0 2 == 1#2

namespace State

/-! ## mip (R74) -/

/-- mip with a given SEIP bit, bit 11 first: MEIP is 0, the lines as they were latched. -/
def mipWith (s : State) (seip : Bool) : Word :=
  (0#1 ++ 0#1 ++ BitVec.ofBool seip ++ 0#1 ++ BitVec.ofBool s.lines.mtip ++ 0#1 ++ BitVec.ofBool s.csr.stip ++ 0#1 ++
    BitVec.ofBool s.lines.msip ++ 0#1 ++ BitVec.ofBool s.csr.ssip ++ 0#1 : BitVec 12).setWidth 64

/-- mip as it reads: SEIP is the software bit or the line (R74). -/
def mip (s : State) : Word := s.mipWith (s.csr.seip || s.lines.seip)

/-! ## Reads -/

/-- The value a CSR reads as. -/
def readCsr (s : State) : CsrName → Word
  | .fflags => s.csr.fflags.setWidth 64
  | .frm => s.csr.frm.setWidth 64
  | .fcsr => (s.csr.frm ++ s.csr.fflags : BitVec 8).setWidth 64
  | .sstatus => s.csr.mstatus.toSstatus
  | .sie => s.csr.mie &&& s.csr.mideleg
  | .stvec => s.csr.stvec
  | .scounteren => s.csr.scounteren.setWidth 64
  | .sscratch => s.csr.sscratch
  | .sepc => s.csr.sepc
  | .scause => s.csr.scause
  | .stval => s.csr.stval
  | .sip => s.mip &&& s.csr.mideleg
  | .satp => s.csr.satp
  | .mstatus => s.csr.mstatus.toWord
  | .misa => misaValue
  | .medeleg => s.csr.medeleg
  | .mideleg => s.csr.mideleg
  | .mie => s.csr.mie
  | .mtvec => s.csr.mtvec
  | .mcounteren => s.csr.mcounteren.setWidth 64
  | .mcountinhibit => 0#64
  | .mhpmevent _ => 0#64
  | .mscratch => s.csr.mscratch
  | .mepc => s.csr.mepc
  | .mcause => s.csr.mcause
  | .mtval => s.csr.mtval
  | .mip => s.mip
  | .pmpcfg _ => 0#64
  | .pmpaddr _ => 0#64
  | .mcycle => s.csr.mcycle
  | .minstret => s.csr.minstret
  | .mhpmcounter _ => 0#64
  | .cycle => s.csr.mcycle
  | .time => s.clint.mtime
  | .instret => s.csr.minstret
  | .hpmcounter _ => 0#64
  | .mvendorid => 0#64
  | .marchid => 0#64
  | .mimpid => 0#64
  | .mhartid => 0#64
  | .mconfigptr => 0#64

/-- The old value CSRRS, CSRRC and their immediate forms compute the new value from: what the CSR reads as, but for mip,
where SEIP is the software bit alone (R74). -/
def csrBase (s : State) : CsrName → Word
  | .mip => s.mipWith s.csr.seip
  | c => s.readCsr c

/-! ## Writes (R54) -/

/-- A satp write (R90, R91): a MODE that is neither Bare nor Sv39 makes the write ignored as a whole. A new MODE or ASID
flushes both TLBs; otherwise entries filled from the old root may remain in the TLBs until an SFENCE.VMA, those of fetches among them
(log 11, log 20). -/
def writeSatp (s : State) (v : Word) : State :=
  if legalSatp v then
    if satpMode v = satpMode s.csr.satp ∧ satpAsid v = satpAsid s.csr.satp then
      { s with csr := { s.csr with satp := v }, walkLog := .satp s.csr.satp :: s.walkLog }
    else { s with csr := { s.csr with satp := v }, itlb := [], dtlb := [], walkLog := [] }
  else s

/-- Write a CSR through its legalisation rule. Reads of constants and views of nothing ignore the write (R54). -/
def writeCsr (s : State) (c : CsrName) (v : Word) : State :=
  match c with
  | .fflags => State.dirtyFp { s with csr := { s.csr with fflags := v.extractLsb' 0 5 } }
  | .frm => State.dirtyFp { s with csr := { s.csr with frm := v.extractLsb' 0 3 } }
  | .fcsr => State.dirtyFp { s with csr := { s.csr with fflags := v.extractLsb' 0 5, frm := v.extractLsb' 5 3 } }
  | .sstatus => { s with csr := { s.csr with mstatus := s.csr.mstatus.writeSstatus v } }
  | .sie =>
    { s with csr := { s.csr with mie := (s.csr.mie &&& ~~~(s.csr.mideleg &&& midelegMask)) |||
        (v &&& (s.csr.mideleg &&& midelegMask)) } }
  | .stvec => if legalTvec v then { s with csr := { s.csr with stvec := v } } else s
  | .scounteren => { s with csr := { s.csr with scounteren := v.setWidth 32 } }
  | .sscratch => { s with csr := { s.csr with sscratch := v } }
  | .sepc => { s with csr := { s.csr with sepc := v &&& ~~~1#64 } }
  | .scause => { s with csr := { s.csr with scause := v } }
  | .stval => { s with csr := { s.csr with stval := v } }
  | .sip => if s.csr.mideleg.getLsbD 1 then { s with csr := { s.csr with ssip := v.getLsbD 1 } } else s
  | .satp => s.writeSatp v
  | .mstatus => { s with csr := { s.csr with mstatus := s.csr.mstatus.write v } }
  | .misa => s
  | .medeleg => { s with csr := { s.csr with medeleg := v &&& medelegMask } }
  | .mideleg => { s with csr := { s.csr with mideleg := v &&& midelegMask } }
  | .mie => { s with csr := { s.csr with mie := v &&& mieMask } }
  | .mtvec => if legalTvec v then { s with csr := { s.csr with mtvec := v } } else s
  | .mcounteren => { s with csr := { s.csr with mcounteren := v.setWidth 32 } }
  | .mcountinhibit => s
  | .mhpmevent _ => s
  | .mscratch => { s with csr := { s.csr with mscratch := v } }
  | .mepc => { s with csr := { s.csr with mepc := v &&& ~~~1#64 } }
  | .mcause => { s with csr := { s.csr with mcause := v } }
  | .mtval => { s with csr := { s.csr with mtval := v } }
  | .mip => { s with csr := { s.csr with ssip := v.getLsbD 1, stip := v.getLsbD 5, seip := v.getLsbD 9 } }
  | .pmpcfg _ => s
  | .pmpaddr _ => s
  | .mcycle => { s with csr := { s.csr with mcycle := v } }
  | .minstret => { s with csr := { s.csr with minstret := v } }
  | .mhpmcounter _ => s
  | .cycle => s
  | .time => s
  | .instret => s
  | .hpmcounter _ => s
  | .mvendorid => s
  | .marchid => s
  | .mimpid => s
  | .mhartid => s
  | .mconfigptr => s

/-! ## The access check (R711) -/

/-- Bits 9:8 of the address name the lowest mode that may access the CSR; 10 admits only M (R711(b)). -/
def csrPrivOk (s : State) (a : BitVec 12) : Bool :=
  match s.priv with
  | .U => a.extractLsb' 8 2 == 0#2
  | .S => a.extractLsb' 8 2 == 0#2 || a.extractLsb' 8 2 == 1#2
  | .M => true

/-- The counter gating of R711(f): counter n needs mcounteren in S, and mcounteren and scounteren in U. -/
def counterOk (s : State) (n : Nat) : Bool :=
  match s.priv with
  | .U => s.csr.mcounteren.getLsbD n && s.csr.scounteren.getLsbD n
  | .S => s.csr.mcounteren.getLsbD n
  | .M => true

/-- The check that depends on the CSR itself: R711(d), (e) and (f). -/
def csrOwnCheck (s : State) (c : CsrName) : Bool :=
  match c with
  | .fflags => s.csr.mstatus.fs != 0#2
  | .frm => s.csr.mstatus.fs != 0#2
  | .fcsr => s.csr.mstatus.fs != 0#2
  | .satp => !(s.priv == .S && s.csr.mstatus.tvm)
  | .cycle => s.counterOk 0
  | .time => s.counterOk 1
  | .instret => s.counterOk 2
  | .hpmcounter n => s.counterOk n
  | _ => true

/-- The CSR an instruction may access, or none if the access is illegal (R711). -/
def csrAccess (s : State) (a : BitVec 12) (writes : Bool) : Option CsrName :=
  match csrOf a with
  | none => none
  | some c =>
    if s.csrPrivOk a && !(writes && a.extractLsb' 10 2 == 3#2) && s.csrOwnCheck c then some c else none

/-! ## Which interrupt is taken (R811, R814) -/

/-- The interrupt is delegated to S-mode. -/
def delegated (s : State) (i : Irq) : Bool := s.csr.mideleg.getLsbD i.code

/-- The interrupt is enabled for the current mode (R811). -/
def irqEnabled (s : State) (i : Irq) : Bool :=
  s.csr.mie.getLsbD i.code && s.mip.getLsbD i.code &&
    (if s.delegated i then s.priv == .U || (s.priv == .S && s.csr.mstatus.sie)
     else s.priv != .M || s.csr.mstatus.mie)

/-- The order of R814. -/
def irqOrder : List Irq := [.mei, .msi, .mti, .sei, .ssi, .sti]

/-- The interrupt to take now: those that go to M first, each group in the order of R814. -/
def pendingIrq (s : State) : Option Irq :=
  match irqOrder.find? fun i => s.irqEnabled i && !s.delegated i with
  | some i => some i
  | none => irqOrder.find? fun i => s.irqEnabled i

end State
end Sys2Proof.Machine
end

