-- ==== Sys2Proof/Machine/Mmu.lean ====
section
/-! DEFINITION. Address translation (spec/20_memory.md R230 to R246), the TLBs and their flushes (R250, R251), and the data
access primitives (R200 to R204). -/
namespace Sys2Proof.Machine

/-- The kind of an access for translation (R230). -/
inductive Access where
  | fetch | load | store
  deriving DecidableEq, Repr

/-- The page fault of an access (R230). -/
def Access.pageFault : Access → Exc
  | .fetch => .instructionPageFault
  | .load => .loadPageFault
  | .store => .storePageFault

/-- The access fault of an access (R173). -/
def Access.accessFault : Access → Exc
  | .fetch => .instructionAccessFault
  | .load => .loadAccessFault
  | .store => .storeAccessFault

/-! ## Virtual addresses and PTEs (R232 to R235, R239) -/

/-- Bits 63:39 equal bit 38 (R232). -/
def canonical (va : Word) : Bool := (va.extractLsb' 0 39).signExtend 64 == va

/-- The 27-bit virtual page number (R233). -/
def vpnOf (va : Word) : BitVec 27 := va.extractLsb' 12 27

/-- VPN[i] (R233). -/
def vpnPart (va : Word) (i : Nat) : BitVec 9 := va.extractLsb' (12 + 9 * i) 9

namespace Pte

def v (p : Word) : Bool := p.getLsbD 0
def r (p : Word) : Bool := p.getLsbD 1
def w (p : Word) : Bool := p.getLsbD 2
def x (p : Word) : Bool := p.getLsbD 3
def u (p : Word) : Bool := p.getLsbD 4
def g (p : Word) : Bool := p.getLsbD 5
def a (p : Word) : Bool := p.getLsbD 6
def d (p : Word) : Bool := p.getLsbD 7
def ppn (p : Word) : BitVec 44 := p.extractLsb' 10 44

/-- Missing or malformed: V = 0, W without R, or a bit of 63:54 set (R236, D24). -/
def malformed (p : Word) : Bool := !v p || (!r p && w p) || p.extractLsb' 54 10 != 0#10

/-- A pointer to the next level: R = W = X = 0 (R234). -/
def pointer (p : Word) : Bool := !r p && !x p

/-- A superpage whose low PPN parts are 0, as its level needs (R237). -/
def aligned (p : Word) (level : Nat) : Bool := (ppn p).extractLsb' 0 (9 * level) == 0#(9 * level)

end Pte

/-- The page size of a leaf's level (R233). -/
def PageSize.ofLevel : Nat → PageSize
  | 0 => .kib4
  | 1 => .mib2
  | _ => .gib1

/-- How many low bits of the virtual page number are inside the page. -/
def PageSize.vpnBits : PageSize → Nat
  | .kib4 => 0
  | .mib2 => 9
  | .gib1 => 18

/-- The virtual page number with the bits inside the page cleared (R241). -/
def PageSize.vpnBase (size : PageSize) (vpn : BitVec 27) : BitVec 27 := (vpn >>> size.vpnBits) <<< size.vpnBits

/-- The physical address a page gives (R239). -/
def pageAddress (size : PageSize) (ppn : BitVec 44) (va : Word) : Word :=
  match size with
  | .kib4 => (ppn ++ va.extractLsb' 0 12 : BitVec 56).setWidth 64
  | .mib2 => (ppn.extractLsb' 9 35 ++ va.extractLsb' 0 21 : BitVec 56).setWidth 64
  | .gib1 => (ppn.extractLsb' 18 26 ++ va.extractLsb' 0 30 : BitVec 56).setWidth 64

namespace TlbEntry

/-- The entry's page holds the address (R242, R250). -/
def covers (e : TlbEntry) (va : Word) : Bool := canonical va && e.size.vpnBase (vpnOf va) == e.vpn

/-- The entry hits for an address in an address space (R242). -/
def hits (e : TlbEntry) (va : Word) (asid : BitVec 16) : Bool := e.covers va && (e.g || e.asid == asid)

/-- The entry an SFENCE.VMA with these operands selects: by address if one is named, by ASID (global entries apart) if one is
named (R250, D57). -/
def selected (e : TlbEntry) (va : Option Word) (asid : Option (BitVec 16)) : Bool :=
  (match va with
   | some a => e.covers a
   | none => true) &&
  (match asid with
   | some n => !e.g && e.asid == n
   | none => true)

/-- The entry a walk fills in: the leaf's flags, with A set (R243). -/
def ofLeaf (va : Word) (asid : BitVec 16) (level : Nat) (pte : Word) : TlbEntry where
  vpn := (PageSize.ofLevel level).vpnBase (vpnOf va)
  asid := asid
  ppn := Pte.ppn pte
  r := Pte.r pte
  w := Pte.w pte
  x := Pte.x pte
  u := Pte.u pte
  g := Pte.g pte
  a := true
  d := Pte.d pte
  size := PageSize.ofLevel level

end TlbEntry

namespace State

/-- The permission check of a leaf or TLB entry with flags r, w, x, u, with the current SUM and MXR (R235). -/
def permitted (s : State) (acc : Access) (p : Priv) (r w x u : Bool) : Bool :=
  (match acc with
   | .fetch => x
   | .load => r || (s.csr.mstatus.mxr && x)
   | .store => w) &&
  (match p with
   | .U => u
   | .S => !u || (acc != .fetch && s.csr.mstatus.sum)
   | .M => false)

/-- The privilege an access is checked at (R231). -/
def effPriv (s : State) (acc : Access) : Priv :=
  if acc ≠ .fetch ∧ s.cfg.mprvTranslates = true ∧ s.priv = .M ∧ s.csr.mstatus.mprv = true then s.csr.mstatus.mpp
  else s.priv

/-! ## Earlier contents of the page tables, for walks for fetches (R266; log 11) -/

/-- The byte at an address before the n newest events of the log. -/
def byteBefore (s : State) (a : Nat) : Nat → List WalkEvent → Byte → Byte
  | 0, _, now => now
  | _, [], now => now
  | n + 1, .store o :: log, now => s.byteBefore a n log (byteBeforeStore o a now)
  | n + 1, .satp _ :: log, now => s.byteBefore a n log now
  | n + 1, .fence _ _ :: log, now => s.byteBefore a n log now

/-- satp before the n newest events of the log. -/
def satpBefore : Nat → List WalkEvent → Word → Word
  | 0, _, now => now
  | _, [], now => now
  | n + 1, .satp old :: log, _ => satpBefore n log old
  | n + 1, .store _ :: log, now => satpBefore n log now
  | n + 1, .fence _ _ :: log, now => satpBefore n log now

/-- Bytes a to a + n - 1 of RAM before the k newest events, little-endian. -/
def ramBefore (s : State) (k a : Nat) : Nat → Word
  | 0 => 0#64
  | n + 1 => (s.ramBefore k (a + 1) n <<< 8) ||| (s.byteBefore a k s.walkLog (s.byteAt a)).setWidth 64

/-- Whether a TLB entry filled before the n newest events would still be there: no fence among them selects it. -/
def survives (e : TlbEntry) : Nat → List WalkEvent → Bool
  | 0, _ => true
  | _, [] => true
  | n + 1, .fence va asid :: log => !e.selected va asid && survives e n log
  | n + 1, .store _ :: log => survives e n log
  | n + 1, .satp _ :: log => survives e n log

/-- The n newest events are stores. -/
def storesAlone : Nat → List WalkEvent → Bool
  | 0, _ => true
  | _, [] => true
  | n + 1, .store _ :: log => storesAlone n log
  | _, .satp _ :: _ => false
  | _, .fence _ _ :: _ => false

/-- A fetch that faulted before the n newest events may still be in flight: they are stores alone, and no FENCE.I has come since
the first of them, for fetchLog still holds them all. SFENCE.VMA and FENCE.I squash what is in flight (R251, R265), and nothing
is fetched behind a CSR instruction before it has retired (R54, R943), so a fault from before one of these is gone (log 11). -/
def stillInFlight (s : State) (n : Nat) : Bool := n ≤ s.fetchLog.length && storesAlone n s.walkLog

/-! ## The walk (R236 to R238) -/

/-- What a walk finds. -/
inductive Walk where
  | leaf (pteAddr pte : Word) (level : Nat)
  | pageFault
  | accessFault
  deriving DecidableEq, Repr

/-- One PTE read: through the bus, or, for an earlier point of time k > 0, from RAM as it was then. -/
def readPte (s : State) (k : Nat) (pa : Word) : Option (Word × State) :=
  if k ≠ 0 ∧ inRam s.cfg pa.toNat 8 = true then some (s.ramBefore k pa.toNat 8, s) else s.busRead pa 8

/-- The walk from the table at a, with i levels below it (R236). The leaf's permissions are checked before its alignment. -/
def walkFrom (s : State) (k : Nat) (acc : Access) (p : Priv) (va : Word) (a : Word) (i : Nat) : Walk × State :=
  let pteAddr := a + ((vpnPart va i).setWidth 64 <<< 3)
  match s.readPte k pteAddr with
  | none => (.accessFault, s)
  | some (pte, t) =>
    if Pte.malformed pte then (.pageFault, t)
    else if Pte.pointer pte then
      match i with
      | 0 => (.pageFault, t)
      | j + 1 => t.walkFrom k acc p va ((Pte.ppn pte).setWidth 64 <<< 12) j
    else if !t.permitted acc p (Pte.r pte) (Pte.w pte) (Pte.x pte) (Pte.u pte) then (.pageFault, t)
    else if !Pte.aligned pte i then (.pageFault, t)
    else (.leaf pteAddr pte i, t)

/-- The leaf with A set, and D for a store (R238). -/
def markedPte (acc : Access) (pte : Word) : Word :=
  if acc = .store then pte ||| 0xC0#64 else pte ||| 0x40#64

/-- The A and D update: a bus write of the leaf's eight bytes (R238). It is no store, so that it ends no run (R905; the model's
choice, log 15). -/
def updatePte (s : State) (pteAddr marked : Word) : Option State :=
  (s.busWrite pteAddr 8 marked).map fun t => { t with ended := s.ended }

/-- The TLB of an access (R240). -/
def tlb (s : State) (acc : Access) : List TlbEntry :=
  match acc with
  | .fetch => s.itlb
  | _ => s.dtlb

/-- Replace the TLB of an access. -/
def setTlb (s : State) (acc : Access) (t : List TlbEntry) : State :=
  match acc with
  | .fetch => { s with itlb := t }
  | _ => { s with dtlb := t }

/-- Fill an entry: it becomes the most recent one, and the least recent one leaves a full TLB (R243). A store that hit an
entry with D = 0, the most recent that hits, refills that entry (R242), and no other leaves (R244; log 23). After a miss none
hits. A TLB of no entries keeps nothing, so that every access walks: the spec does not say what a fill of it does (the model's
choice, log 23). -/
def fill (s : State) (acc : Access) (va : Word) (e : TlbEntry) : State :=
  s.setTlb acc ((e :: (s.tlb acc).eraseP fun o => o.hits va e.asid).take s.cfg.tlbSize)

/-- A walk of the tables as they are now, the A and D update, and the fill (R230 steps 4 and 5). -/
def walk (s : State) (acc : Access) (p : Priv) (va : Word) : Res Word :=
  match s.walkFrom 0 acc p va ((satpPpn s.csr.satp).setWidth 64 <<< 12) 2 with
  | (.pageFault, _) => .raise acc.pageFault va
  | (.accessFault, _) => .raise acc.accessFault va
  | (.leaf pteAddr pte level, t) =>
    let marked := markedPte acc pte
    let e := TlbEntry.ofLeaf va (satpAsid t.csr.satp) level marked
    let pa := pageAddress e.size e.ppn va
    if marked = pte then .ok pa (t.fill acc va e)
    else
      match t.updatePte pteAddr marked with
      | none => .raise acc.accessFault va
      | some t' => .ok pa (t'.fill acc va e)

/-- The leaf a fetch may have found before the k newest events, in the mode of that time: a fetch ahead in S-mode fills an entry
that a fetch in U-mode hits later, and the other way round (R246, R266). -/
def earlierLeaf (s : State) (k : Nat) (va root : Word) : Walk × State :=
  match s.walkFrom k .fetch .S va root 2 with
  | (.leaf pteAddr pte level, t) => (.leaf pteAddr pte level, t)
  | _ => s.walkFrom k .fetch .U va root 2

/-- A walk for a fetch that happened before the k newest events of the log (R266). Its entry must have survived the fences since,
as an entry of the old root survives a satp write (R91), and is checked for the current mode, as any entry that hits (R242). A
fault leaves no entry and must still be in flight. The A bit is set only in a PTE that has not changed since (log 11). None: it
cannot have happened. -/
def earlierWalk (s : State) (k : Nat) (p : Priv) (va : Word) : Option (Res Word) :=
  let satp := satpBefore k s.walkLog s.csr.satp
  if k = 0 then none
  else match s.earlierLeaf k va ((satpPpn satp).setWidth 64 <<< 12) with
    | (.pageFault, _) => if s.stillInFlight k then some (.raise .instructionPageFault va) else none
    | (.accessFault, _) => if s.stillInFlight k then some (.raise .instructionAccessFault va) else none
    | (.leaf pteAddr pte level, t) =>
      let e := TlbEntry.ofLeaf va (satpAsid satp) level pte
      if !survives e k s.walkLog then none
      else if !s.permitted .fetch p e.r e.w e.x e.u then some (.raise .instructionPageFault va)
      else
        let t' := if t.readPte 0 pteAddr = some (pte, t) then (t.updatePte pteAddr (markedPte .fetch pte)).getD t else t
        some (.ok (pageAddress e.size e.ppn va) (t'.fill .fetch va e))

/-- A translation that misses its TLB. A fetch may have been translated at an earlier point of the log; inside a cycle, where what
is stale is in the latches and the TLBs themselves, it is translated now. -/
def miss (s : State) (acc : Access) (p : Priv) (va : Word) : Res Word :=
  match acc, (if s.exact then [] else s.walkLog) with
  | .fetch, e :: log =>
    match s.useDraw.earlierWalk (Config.staleWalk s.draws % ((e :: log).length + 1)) p va with
    | some r => r
    | none => s.useDraw.walk acc p va
  | _, _ => s.walk acc p va

/-- The entries that are left when any entry that would hit may have been evicted (R246; log 9). -/
def survivors (draw : Nat) (va : Word) (asid : BitVec 16) : Nat → List TlbEntry → List TlbEntry
  | _, [] => []
  | k, e :: es =>
    if e.hits va asid && Config.tlbEvicted draw k then survivors draw va asid (k + 1) es
    else e :: survivors draw va asid (k + 1) es

/-- The entries a lookup sees. Inside a cycle of the cycle-level machine the TLB is exact, and nothing is evicted but by its own
rules. -/
def entries (s : State) (acc : Access) (va : Word) : List TlbEntry :=
  if s.exact then s.tlb acc else survivors s.draws va (satpAsid s.csr.satp) 0 (s.tlb acc)

/-- Translate (R230). -/
def translate (s : State) (acc : Access) (va : Word) : Res Word :=
  let p := s.effPriv acc
  if satpMode s.csr.satp = 0#4 ∨ p = .M then .ok va s
  else if !canonical va then .raise acc.pageFault va
  else
    let asid := satpAsid s.csr.satp
    let found := s.entries acc va
    let t := (s.setTlb acc found).useDraw
    match found.find? fun e => e.hits va asid with
    | none => t.miss acc p va
    | some e =>
      if !t.permitted acc p e.r e.w e.x e.u then .raise acc.pageFault va
      else if acc = .store ∧ e.d = false then t.miss acc p va
      else .ok (pageAddress e.size e.ppn va) (t.setTlb acc (e :: found.erase e))

/-! ## Flushes (R250) -/

/-- SFENCE.VMA: the selected entries leave both TLBs before the next translation. With no operands named, no earlier walk can
be seen any more (R251). -/
def flushTlbs (s : State) (va : Option Word) (asid : Option (BitVec 16)) : State :=
  { s with
    itlb := s.itlb.filter fun e => !e.selected va asid
    dtlb := s.dtlb.filter fun e => !e.selected va asid
    walkLog := if va = none ∧ asid = none then [] else .fence va asid :: s.walkLog }

/-! ## Data accesses (R200, R201, R204) -/

/-- The value is a multiple of n (R181). -/
def isAligned (va : Word) (n : Nat) : Bool := va.toNat % n == 0

/-- MemRead for a load or LR (R200): the value and the physical address it came from. -/
def memRead (s : State) (va : Word) (n : Nat) : Res (Word × Word) :=
  if !isAligned va n then .raise .loadAddressMisaligned va
  else
    (s.translate .load va).bind fun pa t =>
      match t.busRead pa n with
      | none => .raise .loadAccessFault va
      | some (v, t') => .ok (v, pa) t'

/-- MemWrite for a store (R201). -/
def memWrite (s : State) (va : Word) (n : Nat) (v : Word) : Res Unit :=
  if !isAligned va n then .raise .storeAddressMisaligned va
  else
    (s.translate .store va).bind fun pa t =>
      match t.busWrite pa n v with
      | none => .raise .storeAccessFault va
      | some t' => .ok () t'

/-- One AMO (R204, R534): one translation, checked as a store, then the read and the write with nothing between them. The
result is the value read. -/
def memAmo (s : State) (va : Word) (n : Nat) (f : Word → Word) : Res Word :=
  if !isAligned va n then .raise .storeAddressMisaligned va
  else
    (s.translate .store va).bind fun pa t =>
      match t.busRead pa n with
      | none => .raise .storeAccessFault va
      | some (old, t') =>
        match t'.busWrite pa n (f old) with
        | none => .raise .storeAccessFault va
        | some t'' => .ok old t''

end State
end Sys2Proof.Machine
end

