-- ==== Sys2Proof/Machine/Operands.lean ====
section
/-! DEFINITION. The operand forms: extended immediates (spec/30_encoding.md R320 to R328), effective addresses
(spec/42_loadstore.md R490), FP operands (spec/45_fp_single.md R561, R563), register numbers of compressed fields. -/
namespace Sys2Proof.Machine

/-- The register a 3-bit compressed field names: 8 + r' (R328). -/
def fullReg (r : CReg) : Reg := 0b01#2 ++ r

/-- The stack pointer x2 and the link register x1 of the compressed forms. -/
def sp : Reg := 2#5
def ra : Reg := 1#5

/-- A sign-extended immediate (R320 to R324). -/
def sext {w : Nat} (imm : BitVec w) : Word := imm.signExtend 64

/-- A zero-extended field (R325). -/
def zext {w : Nat} (imm : BitVec w) : Word := imm.setWidth 64

/-- The value LUI and AUIPC use: imm ++ 0x000, sign-extended (R323). -/
def upperImm {w : Nat} (imm : BitVec w) : Word := sext (imm ++ 0#12)

/-- The low 32 bits of a register. -/
def low32 (v : Word) : BitVec 32 := v.extractLsb' 0 32

/-- A 32-bit result, sign-extended into a register. -/
def wordResult (v : BitVec 32) : Word := v.signExtend 64

namespace State

/-- Base plus immediate, modulo 2^64 (R490). -/
def effAddr {w : Nat} (s : State) (rs1 : Reg) (imm : BitVec w) : Word := s.readX rs1 + sext imm

/-- The address of a compressed form, whose scaled immediate is zero-extended (R741). -/
def effAddrU {w : Nat} (s : State) (rs1 : Reg) (uimm : BitVec w) : Word := s.readX rs1 + zext uimm

end State

/-! ## FP operands -/

/-- The canonical NaNs (R562). -/
def canonicalNaN32 : BitVec 32 := 0x7FC00000#32
def canonicalNaN64 : BitVec 64 := 0x7FF8000000000000#64

/-- A NaN-boxed single (R561). -/
def boxS (v : BitVec 32) : Word := 0xFFFFFFFF#32 ++ v

/-- The single an FP register holds: the canonical NaN if it is not boxed (R561). -/
def unboxS (v : Word) : BitVec 32 := if v.extractLsb' 32 32 = 0xFFFFFFFF#32 then low32 v else canonicalNaN32

/-- The single-precision operand in f register r. -/
def State.readS (s : State) (r : Reg) : BitVec 32 := unboxS (s.readF r)

/-- Rounding modes (R563). -/
inductive RoundingMode where
  | rne | rtz | rdn | rup | rmm
  deriving DecidableEq, Repr

/-- The mode of a 3-bit code; 101, 110 and 111 name none (R50). -/
def RoundingMode.ofCode? (c : BitVec 3) : Option RoundingMode :=
  match c with
  | 0b000#3 => some .rne
  | 0b001#3 => some .rtz
  | 0b010#3 => some .rdn
  | 0b011#3 => some .rup
  | 0b100#3 => some .rmm
  | _ => none

/-- The mode an instruction with this rm field uses: 111 means frm; none if the code it comes to is invalid (R563). -/
def State.roundingMode (s : State) (rm : BitVec 3) : Option RoundingMode :=
  RoundingMode.ofCode? (if rm = 0b111#3 then s.csr.frm else rm)

/-- FP instructions are legal: FS is not Off (R62(a), R712). -/
def State.fpEnabled (s : State) : Bool := s.csr.mstatus.fs != 0#2

end Sys2Proof.Machine
end

