-- ==== Sys2Proof/Machine/Atomic.lean ====
section
/-! DEFINITION. Atomic instructions (spec/44_atomic.md). The ordering bits aq and rl change nothing (R533). -/
namespace Sys2Proof.Machine

/-- The size of the reservation granule: the L1 data cache's line, or 64 without that cache (R530, D19). -/
def granuleBytes (c : Config) : Nat := if c.l1d.enabled then c.l1d.lineBytes else 64

namespace State

/-- The granule of a physical address (R530). -/
def granule (s : State) (pa : Word) : Word := pa &&& ~~~BitVec.ofNat 64 (granuleBytes s.cfg - 1)

/-- LR: load n bytes, extended, and reserve the granule (R535). -/
def loadReserved (s : State) (rd : Reg) (a : Word) (n : Nat) (extend : Word → Word) : Result :=
  ((s.memRead a n).bind fun v t =>
    .ok () (State.retireTo { t.writeX rd (extend v.1) with resv := some (t.granule v.2) } (s.pc + 4#64))).deliver s

/-- The memory part of SC (R531, R536): alignment and translation are checked whether or not the reservation is held; the
write is made only if it is. The value is 0 for success, 1 for failure. -/
def scAccess (s : State) (a : Word) (n : Nat) (v : Word) : Res Word :=
  if !isAligned a n then .raise .storeAddressMisaligned a
  else
    (s.translate .store a).bind fun pa t =>
      if t.resv = some (t.granule pa) then
        match t.busWrite pa n v with
        | none => .raise .storeAccessFault a
        | some t' => .ok 0#64 t'
      else .ok 1#64 t

/-- SC: the reservation is gone after it, whatever the outcome (R530). -/
def storeConditional (s : State) (rd : Reg) (a : Word) (n : Nat) (v : Word) : Result :=
  ((s.scAccess a n v).bind fun code t =>
    .ok () (State.retireTo { t.writeX rd code with resv := none } (s.pc + 4#64))).deliver s

/-- A 32-bit AMO (R534): f combines the word in memory and the low word of the operand. -/
def amoW (s : State) (rd : Reg) (a src : Word) (f : BitVec 32 → BitVec 32 → BitVec 32) : Result :=
  ((s.memAmo a 4 fun old => zext (f (low32 old) (low32 src))).bind fun old t =>
    .ok () ((t.writeX rd (wordResult (low32 old))).retireTo (s.pc + 4#64))).deliver s

/-- A 64-bit AMO (R534). -/
def amoD (s : State) (rd : Reg) (a src : Word) (f : Word → Word → Word) : Result :=
  ((s.memAmo a 8 fun old => f old src).bind fun old t =>
    .ok () ((t.writeX rd old).retireTo (s.pc + 4#64))).deliver s

end State

/-- The signed and unsigned minimum and maximum (R534, R544 to R547). -/
def minS {w : Nat} (a b : BitVec w) : BitVec w := if a.slt b then a else b
def maxS {w : Nat} (a b : BitVec w) : BitVec w := if a.slt b then b else a
def minU {w : Nat} (a b : BitVec w) : BitVec w := if a.ult b then a else b
def maxU {w : Nat} (a b : BitVec w) : BitVec w := if a.ult b then b else a

/-- LR.W (R535). -/
def execLrW (_aq _rl : BitVec 1) (rd rs1 : Reg) (s : State) : Result :=
  s.loadReserved rd (s.readX rs1) 4 fun v => wordResult (low32 v)
/-- SC.W (R536). -/
def execScW (_aq _rl : BitVec 1) (rd rs1 rs2 : Reg) (s : State) : Result :=
  s.storeConditional rd (s.readX rs1) 4 (s.readX rs2)
/-- LR.D (R537). -/
def execLrD (_aq _rl : BitVec 1) (rd rs1 : Reg) (s : State) : Result := s.loadReserved rd (s.readX rs1) 8 id
/-- SC.D (R538). -/
def execScD (_aq _rl : BitVec 1) (rd rs1 rs2 : Reg) (s : State) : Result :=
  s.storeConditional rd (s.readX rs1) 8 (s.readX rs2)
/-- AMOSWAP.W (R539). -/
def execAmoswapW (_aq _rl : BitVec 1) (rd rs1 rs2 : Reg) (s : State) : Result :=
  s.amoW rd (s.readX rs1) (s.readX rs2) (fun _ b => b)
/-- AMOADD.W (R540). -/
def execAmoaddW (_aq _rl : BitVec 1) (rd rs1 rs2 : Reg) (s : State) : Result :=
  s.amoW rd (s.readX rs1) (s.readX rs2) (fun a b => a + b)
/-- AMOXOR.W (R541). -/
def execAmoxorW (_aq _rl : BitVec 1) (rd rs1 rs2 : Reg) (s : State) : Result :=
  s.amoW rd (s.readX rs1) (s.readX rs2) (fun a b => a ^^^ b)
/-- AMOAND.W (R542). -/
def execAmoandW (_aq _rl : BitVec 1) (rd rs1 rs2 : Reg) (s : State) : Result :=
  s.amoW rd (s.readX rs1) (s.readX rs2) (fun a b => a &&& b)
/-- AMOOR.W (R543). -/
def execAmoorW (_aq _rl : BitVec 1) (rd rs1 rs2 : Reg) (s : State) : Result :=
  s.amoW rd (s.readX rs1) (s.readX rs2) (fun a b => a ||| b)
/-- AMOMIN.W (R544). -/
def execAmominW (_aq _rl : BitVec 1) (rd rs1 rs2 : Reg) (s : State) : Result :=
  s.amoW rd (s.readX rs1) (s.readX rs2) minS
/-- AMOMAX.W (R545). -/
def execAmomaxW (_aq _rl : BitVec 1) (rd rs1 rs2 : Reg) (s : State) : Result :=
  s.amoW rd (s.readX rs1) (s.readX rs2) maxS
/-- AMOMINU.W (R546). -/
def execAmominuW (_aq _rl : BitVec 1) (rd rs1 rs2 : Reg) (s : State) : Result :=
  s.amoW rd (s.readX rs1) (s.readX rs2) minU
/-- AMOMAXU.W (R547). -/
def execAmomaxuW (_aq _rl : BitVec 1) (rd rs1 rs2 : Reg) (s : State) : Result :=
  s.amoW rd (s.readX rs1) (s.readX rs2) maxU
/-- AMOSWAP.D (R548). -/
def execAmoswapD (_aq _rl : BitVec 1) (rd rs1 rs2 : Reg) (s : State) : Result :=
  s.amoD rd (s.readX rs1) (s.readX rs2) (fun _ b => b)
/-- AMOADD.D (R549). -/
def execAmoaddD (_aq _rl : BitVec 1) (rd rs1 rs2 : Reg) (s : State) : Result :=
  s.amoD rd (s.readX rs1) (s.readX rs2) (fun a b => a + b)
/-- AMOXOR.D (R550). -/
def execAmoxorD (_aq _rl : BitVec 1) (rd rs1 rs2 : Reg) (s : State) : Result :=
  s.amoD rd (s.readX rs1) (s.readX rs2) (fun a b => a ^^^ b)
/-- AMOAND.D (R551). -/
def execAmoandD (_aq _rl : BitVec 1) (rd rs1 rs2 : Reg) (s : State) : Result :=
  s.amoD rd (s.readX rs1) (s.readX rs2) (fun a b => a &&& b)
/-- AMOOR.D (R552). -/
def execAmoorD (_aq _rl : BitVec 1) (rd rs1 rs2 : Reg) (s : State) : Result :=
  s.amoD rd (s.readX rs1) (s.readX rs2) (fun a b => a ||| b)
/-- AMOMIN.D (R553). -/
def execAmominD (_aq _rl : BitVec 1) (rd rs1 rs2 : Reg) (s : State) : Result :=
  s.amoD rd (s.readX rs1) (s.readX rs2) minS
/-- AMOMAX.D (R554). -/
def execAmomaxD (_aq _rl : BitVec 1) (rd rs1 rs2 : Reg) (s : State) : Result :=
  s.amoD rd (s.readX rs1) (s.readX rs2) maxS
/-- AMOMINU.D (R555). -/
def execAmominuD (_aq _rl : BitVec 1) (rd rs1 rs2 : Reg) (s : State) : Result :=
  s.amoD rd (s.readX rs1) (s.readX rs2) minU
/-- AMOMAXU.D (R556). -/
def execAmomaxuD (_aq _rl : BitVec 1) (rd rs1 rs2 : Reg) (s : State) : Result :=
  s.amoD rd (s.readX rs1) (s.readX rs2) maxU

end Sys2Proof.Machine
end

