-- ==== Sys2Proof/Machine/Control.lean ====
section
/-! DEFINITION. Control transfers (spec/41_control.md). -/
namespace Sys2Proof.Machine

namespace State

/-- A jump: the link value is written after the target has been computed (R473, R474). -/
def jumpAndLink (s : State) (rd : Reg) (target size : Word) : Result :=
  .next ((s.writeX rd (s.pc + size)).retireTo target)

/-- The target of JALR: the sum with bit 0 cleared (R474). -/
def jalrTarget (s : State) (rs1 : Reg) (imm : Word) : Word := (s.readX rs1 + imm) &&& ~~~1#64

/-- A conditional branch (R475). -/
def branch (s : State) (taken : Bool) (offset size : Word) : Result :=
  .next (s.retireTo (s.pc + if taken then offset else size))

end State

/-- JAL (R473). -/
def execJal (rd : Reg) (imm : BitVec 21) (s : State) : Result := s.jumpAndLink rd (s.pc + sext imm) 4#64
/-- JALR (R474). -/
def execJalr (rd rs1 : Reg) (imm : BitVec 12) (s : State) : Result :=
  s.jumpAndLink rd (s.jalrTarget rs1 (sext imm)) 4#64
/-- BEQ (R475). -/
def execBeq (rs1 rs2 : Reg) (imm : BitVec 13) (s : State) : Result :=
  s.branch (s.readX rs1 == s.readX rs2) (sext imm) 4#64
/-- BNE (R476). -/
def execBne (rs1 rs2 : Reg) (imm : BitVec 13) (s : State) : Result :=
  s.branch (s.readX rs1 != s.readX rs2) (sext imm) 4#64
/-- BLT (R477). -/
def execBlt (rs1 rs2 : Reg) (imm : BitVec 13) (s : State) : Result :=
  s.branch ((s.readX rs1).slt (s.readX rs2)) (sext imm) 4#64
/-- BGE (R478). -/
def execBge (rs1 rs2 : Reg) (imm : BitVec 13) (s : State) : Result :=
  s.branch (!(s.readX rs1).slt (s.readX rs2)) (sext imm) 4#64
/-- BLTU (R479). -/
def execBltu (rs1 rs2 : Reg) (imm : BitVec 13) (s : State) : Result :=
  s.branch ((s.readX rs1).ult (s.readX rs2)) (sext imm) 4#64
/-- BGEU (R480). -/
def execBgeu (rs1 rs2 : Reg) (imm : BitVec 13) (s : State) : Result :=
  s.branch (!(s.readX rs1).ult (s.readX rs2)) (sext imm) 4#64

end Sys2Proof.Machine
end

