-- ==== Sys2Proof/Machine/Flags.lean ====
section
/-! DEFINITION. The FP exception flags (spec/10_state.md R49, spec/45_fp_single.md R566). The integer instructions have no
flags (R48). -/
namespace Sys2Proof.Machine

/-- A set of FP exception flags, as fflags holds it: NV DZ OF UF NX from bit 4 down (R49). -/
abbrev FFlags := BitVec 5

namespace FFlags

def none : FFlags := 0b00000#5
/-- Invalid operation. -/
def nv : FFlags := 0b10000#5
/-- Divide by zero. -/
def dz : FFlags := 0b01000#5
/-- Overflow. -/
def of : FFlags := 0b00100#5
/-- Underflow. -/
def uf : FFlags := 0b00010#5
/-- Inexact. -/
def nx : FFlags := 0b00001#5

/-- A flag if a condition holds. -/
def when (f : FFlags) (c : Bool) : FFlags := if c then f else none

end FFlags

/-- Accumulate flags; setting at least one makes the FP state Dirty (R566). -/
def State.accrue (s : State) (flags : FFlags) : State :=
  if flags = FFlags.none then s else State.dirtyFp { s with csr := { s.csr with fflags := s.csr.fflags ||| flags } }

end Sys2Proof.Machine
end

