-- ==== Sys2Proof/Machine/Float.lean ====
section
/-! DEFINITION. IEEE 754 arithmetic on bit patterns, for both formats (spec/45_fp_single.md R560 to R576).

An operation computes the exact real result of its operands, as an integer times a power of two, and rounds it once. A quotient
or a square root that is no such number is cut below the last bit that matters, with one bit that says whether anything was
cut. -/
namespace Sys2Proof.Machine

/-- A binary interchange format: exponent bits and fraction bits (R560). -/
structure FpFmt where
  ebits : Nat
  fbits : Nat
  deriving DecidableEq, Repr

namespace FpFmt

/-- binary32. -/
def single : FpFmt := ⟨8, 23⟩
/-- binary64. -/
def double : FpFmt := ⟨11, 52⟩

/-- The exponent bias. -/
def bias (F : FpFmt) : Nat := 2 ^ (F.ebits - 1) - 1
/-- The exponent of the last bit of a subnormal. -/
def minExp (F : FpFmt) : Int := 1 - (F.bias : Int) - (F.fbits : Int)
/-- The pattern of +∞. -/
def infPattern (F : FpFmt) : Nat := (2 ^ F.ebits - 1) * 2 ^ F.fbits
/-- The sign bit's weight. -/
def signWeight (F : FpFmt) : Nat := 2 ^ (F.ebits + F.fbits)
/-- The canonical NaN (R562). -/
def canonicalNaN (F : FpFmt) : Nat := F.infPattern + 2 ^ (F.fbits - 1)
/-- A pattern from its sign and the rest. -/
def withSign (F : FpFmt) (sign : Bool) (magnitude : Nat) : Nat := if sign then F.signWeight + magnitude else magnitude

end FpFmt

/-- What a pattern stands for: a NaN, an infinity, or (−1)^sign · m · 2^e; m = 0 is a zero (R560). -/
inductive FpVal where
  | nan (signaling : Bool)
  | inf (sign : Bool)
  | fin (sign : Bool) (m : Nat) (e : Int)
  deriving DecidableEq, Repr

/-- The value of a pattern (R560). -/
def FpFmt.unpack (F : FpFmt) (p : Nat) : FpVal :=
  let sign := p / F.signWeight % 2 == 1
  let ex := p / 2 ^ F.fbits % 2 ^ F.ebits
  let frac := p % 2 ^ F.fbits
  if ex = 2 ^ F.ebits - 1 then if frac = 0 then .inf sign else .nan (frac < 2 ^ (F.fbits - 1))
  else if ex = 0 then .fin sign frac F.minExp
  else .fin sign (2 ^ F.fbits + frac) (F.minExp + (ex : Int) - 1)

namespace FpVal

/-- The value is a signaling NaN. -/
def isSignaling : FpVal → Bool
  | .nan b => b
  | _ => false

/-- The value is a NaN. -/
def isNaN : FpVal → Bool
  | .nan _ => true
  | _ => false

/-- The value with its sign changed; NaNs have no sign that matters (R562). -/
def neg : FpVal → FpVal
  | .nan b => .nan b
  | .inf s => .inf (!s)
  | .fin s m e => .fin (!s) m e

end FpVal

/-! ## Rounding (R563 to R565) -/

/-- Whether a magnitude with quotient hi and nonzero remainder lo below 2^shift is rounded away from zero. -/
def roundsUp (mode : RoundingMode) (sign : Bool) (hi lo shift : Nat) : Bool :=
  match mode with
  | .rne => 2 * lo > 2 ^ shift || (2 * lo == 2 ^ shift && hi % 2 == 1)
  | .rtz => false
  | .rdn => sign && lo != 0
  | .rup => !sign && lo != 0
  | .rmm => 2 * lo ≥ 2 ^ shift

/-- m divided by 2^shift, rounded to an integer, and whether it is inexact. -/
def roundShift (mode : RoundingMode) (sign : Bool) (m shift : Nat) : Nat × Bool :=
  let hi := m / 2 ^ shift
  let lo := m % 2 ^ shift
  if lo = 0 then (hi, false) else (if roundsUp mode sign hi lo shift then hi + 1 else hi, true)

/-- m · 2^e as a multiple of 2^q, rounded, and whether it is inexact. -/
def roundTo (mode : RoundingMode) (sign : Bool) (m : Nat) (e q : Int) : Nat × Bool :=
  if q ≤ e then (m * 2 ^ (e - q).toNat, false) else roundShift mode sign m (q - e).toNat

/-- The magnitude an overflow gives (R564). -/
def overflowPattern (F : FpFmt) (mode : RoundingMode) (sign : Bool) : Nat :=
  match mode with
  | .rne => F.infPattern
  | .rmm => F.infPattern
  | .rtz => F.infPattern - 1
  | .rdn => if sign then F.infPattern else F.infPattern - 1
  | .rup => if sign then F.infPattern - 1 else F.infPattern

/-- round_F of (−1)^sign · m · 2^e (R564, R565). A zero keeps the sign given. The last bit kept has weight 2^q: as many bits
as the format's precision, or down to the subnormal's last bit. Tininess is judged after rounding with unbounded exponent. -/
def roundPack (F : FpFmt) (mode : RoundingMode) (sign : Bool) (m : Nat) (e : Int) : Nat × FFlags :=
  if m = 0 then (F.withSign sign 0, FFlags.none)
  else
    let free : Int := e + (m.log2 : Int) - (F.fbits : Int)
    let q := max free F.minExp
    let r := roundTo mode sign m e q
    let magnitude := (q - F.minExp).toNat * 2 ^ F.fbits + r.1
    if F.infPattern ≤ magnitude then
      (F.withSign sign (overflowPattern F mode sign), FFlags.of ||| FFlags.nx)
    else
      let carry : Int := if (roundTo mode sign m e free).1 = 2 ^ (F.fbits + 1) then 1 else 0
      let tiny := free + carry < F.minExp
      (F.withSign sign magnitude, FFlags.when FFlags.nx r.2 ||| FFlags.when FFlags.uf (r.2 && tiny))

/-! ## Arithmetic -/

/-- The canonical NaN, with NV if the operation was invalid (R562, R567). -/
def nanResult (F : FpFmt) (invalid : Bool) : Nat × FFlags := (F.canonicalNaN, FFlags.when FFlags.nv invalid)

/-- An infinity of a sign. -/
def infResult (F : FpFmt) (sign : Bool) : Nat × FFlags := (F.withSign sign F.infPattern, FFlags.none)

/-- The integer (−1)^sign · m · 2^k. -/
def signedMantissa (sign : Bool) (m k : Nat) : Int := if sign then -((m * 2 ^ k : Nat) : Int) else ((m * 2 ^ k : Nat) : Int)

/-- The exact sum of two finite values, rounded; an exact zero of opposite signs is +0, or −0 toward −∞ (R569). -/
def addFinite (F : FpFmt) (mode : RoundingMode) (s1 : Bool) (m1 : Nat) (e1 : Int) (s2 : Bool) (m2 : Nat) (e2 : Int) :
    Nat × FFlags :=
  let e := min e1 e2
  let sum := signedMantissa s1 m1 (e1 - e).toNat + signedMantissa s2 m2 (e2 - e).toNat
  if sum = 0 then roundPack F mode (if s1 == s2 then s1 else mode == .rdn) 0 e
  else roundPack F mode (decide (sum < 0)) sum.natAbs e

/-- a + b (R567, R569, R587). -/
def fpAddVal (F : FpFmt) (mode : RoundingMode) (a b : FpVal) : Nat × FFlags :=
  match a, b with
  | .nan x, v => nanResult F (x || v.isSignaling)
  | _, .nan y => nanResult F y
  | .inf s, .inf t => if s == t then infResult F s else nanResult F true
  | .inf s, .fin _ _ _ => infResult F s
  | .fin _ _ _, .inf t => infResult F t
  | .fin s1 m1 e1, .fin s2 m2 e2 => addFinite F mode s1 m1 e1 s2 m2 e2

/-- a · b (R567, R569, R589). -/
def fpMulVal (F : FpFmt) (mode : RoundingMode) (a b : FpVal) : Nat × FFlags :=
  match a, b with
  | .nan x, v => nanResult F (x || v.isSignaling)
  | _, .nan y => nanResult F y
  | .inf s, .inf t => infResult F (s != t)
  | .inf s, .fin t m _ => if m = 0 then nanResult F true else infResult F (s != t)
  | .fin s m _, .inf t => if m = 0 then nanResult F true else infResult F (s != t)
  | .fin s1 m1 e1, .fin s2 m2 e2 => roundPack F mode (s1 != s2) (m1 * m2) (e1 + e2)

/-- a / b (R567, R568, R590). The quotient is cut after more bits than the format keeps; the bit below says whether the
division was exact. -/
def fpDivVal (F : FpFmt) (mode : RoundingMode) (a b : FpVal) : Nat × FFlags :=
  match a, b with
  | .nan x, v => nanResult F (x || v.isSignaling)
  | _, .nan y => nanResult F y
  | .inf _, .inf _ => nanResult F true
  | .inf s, .fin t _ _ => infResult F (s != t)
  | .fin s _ _, .inf t => (F.withSign (s != t) 0, FFlags.none)
  | .fin s1 m1 e1, .fin s2 m2 e2 =>
    if m2 = 0 then
      if m1 = 0 then nanResult F true else (F.withSign (s1 != s2) F.infPattern, FFlags.dz)
    else
      let k := F.fbits + 4 + m2.log2
      let n := m1 * 2 ^ k
      let cut := if n % m2 = 0 then 0 else 1
      roundPack F mode (s1 != s2) (2 * (n / m2) + cut) (e1 - e2 - (k : Int) - 1)

/-- The bits of an integer square root, from bit i downward: the largest r ≥ acc, equal to acc above bit i, with r·r ≤ n. -/
def isqrtFrom (n : Nat) : Nat → Nat → Nat
  | 0, acc => acc
  | i + 1, acc => isqrtFrom n i (if (acc + 2 ^ i) * (acc + 2 ^ i) ≤ n then acc + 2 ^ i else acc)

/-- The integer square root. -/
def isqrt (n : Nat) : Nat := isqrtFrom n (n.log2 / 2 + 1) 0

/-- √a (R567, R569, R591), cut like a quotient. The mantissa is scaled so that the exponent is even. -/
def fpSqrtVal (F : FpFmt) (mode : RoundingMode) (a : FpVal) : Nat × FFlags :=
  match a with
  | .nan x => nanResult F x
  | .inf s => if s then nanResult F true else infResult F false
  | .fin s m e =>
    if m = 0 then (F.withSign s 0, FFlags.none)
    else if s then nanResult F true
    else
      let k := 2 * F.fbits + 6 + (e % 2).toNat
      let n := m * 2 ^ k
      let r := isqrt n
      let cut := if r * r = n then 0 else 1
      roundPack F mode false (2 * r + cut) ((e - (k : Int)) / 2 - 1)

/-- The product is 0 · ∞. -/
def zeroTimesInf (a b : FpVal) : Bool :=
  match a, b with
  | .inf _, .fin _ m _ => m == 0
  | .fin _ m _, .inf _ => m == 0
  | _, _ => false

/-- a · b + c, rounded once (R567, R569, R576). 0 · ∞ is invalid even when the addend is a quiet NaN. -/
def fpFmaVal (F : FpFmt) (mode : RoundingMode) (a b c : FpVal) : Nat × FFlags :=
  if a.isNaN || b.isNaN || c.isNaN then
    nanResult F (a.isSignaling || b.isSignaling || c.isSignaling || zeroTimesInf a b)
  else
    match a, b with
    | .fin s1 m1 e1, .fin s2 m2 e2 => fpAddVal F mode (.fin (s1 != s2) (m1 * m2) (e1 + e2)) c
    | .inf s, .inf t => fpAddVal F mode (.inf (s != t)) c
    | .inf s, .fin t m _ => if m = 0 then nanResult F true else fpAddVal F mode (.inf (s != t)) c
    | .fin s m _, .inf t => if m = 0 then nanResult F true else fpAddVal F mode (.inf (s != t)) c
    | _, _ => nanResult F false

/-! ## Comparisons, minimum, maximum, class (R570, R571, R574) -/

/-- a < b on values; false if either is a NaN. Zeros of both signs are equal. -/
def fpLess (a b : FpVal) : Bool :=
  match a, b with
  | .nan _, _ => false
  | _, .nan _ => false
  | .inf s, .inf t => s && !t
  | .inf s, .fin _ _ _ => s
  | .fin _ _ _, .inf t => !t
  | .fin s1 m1 e1, .fin s2 m2 e2 =>
    let e := min e1 e2
    signedMantissa s1 m1 (e1 - e).toNat < signedMantissa s2 m2 (e2 - e).toNat

/-- a = b on values; false if either is a NaN. -/
def fpEqual (a b : FpVal) : Bool := !a.isNaN && !b.isNaN && !fpLess a b && !fpLess b a

/-- FEQ: quiet (R571). -/
def fpFeq (F : FpFmt) (a b : Nat) : Bool × FFlags :=
  let x := F.unpack a
  let y := F.unpack b
  (fpEqual x y, FFlags.when FFlags.nv (x.isSignaling || y.isSignaling))

/-- FLT: signaling (R571). -/
def fpFlt (F : FpFmt) (a b : Nat) : Bool × FFlags :=
  let x := F.unpack a
  let y := F.unpack b
  (fpLess x y, FFlags.when FFlags.nv (x.isNaN || y.isNaN))

/-- FLE: signaling (R571). -/
def fpFle (F : FpFmt) (a b : Nat) : Bool × FFlags :=
  let x := F.unpack a
  let y := F.unpack b
  (fpLess x y || fpEqual x y, FFlags.when FFlags.nv (x.isNaN || y.isNaN))

/-- The sign bit of a pattern. -/
def FpFmt.signOf (F : FpFmt) (p : Nat) : Bool := p / F.signWeight % 2 == 1

/-- FMIN and FMAX (R570): the lesser or the greater pattern, with −0 below +0. -/
def fpMinMax (F : FpFmt) (wantMax : Bool) (a b : Nat) : Nat × FFlags :=
  let x := F.unpack a
  let y := F.unpack b
  let flags := FFlags.when FFlags.nv (x.isSignaling || y.isSignaling)
  if x.isNaN && y.isNaN then (F.canonicalNaN, flags)
  else if x.isNaN then (b, flags)
  else if y.isNaN then (a, flags)
  else
    let aFirst := fpLess x y || (fpEqual x y && F.signOf a)
    ((if aFirst != wantMax then a else b), flags)

/-- FCLASS (R574): the bit of the pattern's class. -/
def fpClass (F : FpFmt) (p : Nat) : Nat :=
  match F.unpack p with
  | .inf true => 2 ^ 0
  | .inf false => 2 ^ 7
  | .nan true => 2 ^ 8
  | .nan false => 2 ^ 9
  | .fin s m _ =>
    if m = 0 then if s then 2 ^ 3 else 2 ^ 4
    else if m < 2 ^ F.fbits then if s then 2 ^ 2 else 2 ^ 5
    else if s then 2 ^ 1 else 2 ^ 6

/-! ## Conversions (R572, R573, R667, R668) -/

/-- A value rounded to an integer, and whether it changed. -/
def roundToInt (mode : RoundingMode) (sign : Bool) (m : Nat) (e : Int) : Int × Bool :=
  let r := roundTo mode sign m e 0
  (if sign then -(r.1 : Int) else (r.1 : Int), r.2)

/-- To an integer in [lo, hi] (R572): NaN and values above give hi, values below give lo, with NV alone. -/
def fpToInt (F : FpFmt) (mode : RoundingMode) (lo hi : Int) (p : Nat) : Int × FFlags :=
  match F.unpack p with
  | .nan _ => (hi, FFlags.nv)
  | .inf s => (if s then lo else hi, FFlags.nv)
  | .fin s m e =>
    let r := roundToInt mode s m e
    if r.1 < lo then (lo, FFlags.nv)
    else if hi < r.1 then (hi, FFlags.nv)
    else (r.1, FFlags.when FFlags.nx r.2)

/-- From an integer, rounded once; zero converts to +0 (R573). -/
def fpOfInt (F : FpFmt) (mode : RoundingMode) (n : Int) : Nat × FFlags := roundPack F mode (decide (n < 0)) n.natAbs 0

/-- From one format to another (R667, R668): NaNs become canonical, a signaling one sets NV. -/
def fpConvert (src dst : FpFmt) (mode : RoundingMode) (p : Nat) : Nat × FFlags :=
  match src.unpack p with
  | .nan x => nanResult dst x
  | .inf s => infResult dst s
  | .fin s m e => roundPack dst mode s m e

end Sys2Proof.Machine
end

