-- ==== Sys2Proof/Machine/Integer.lean ====
section
/-! DEFINITION. Integer computational instructions (spec/40_integer.md). -/
namespace Sys2Proof.Machine

/-! ## Operations on values -/

/-- 1 or 0 (R406). -/
def boolWord (b : Bool) : Word := if b then 1#64 else 0#64

/-- RV64 shifts use the low 6 bits of the amount (R402). -/
def shl64 (a b : Word) : Word := a <<< (b.extractLsb' 0 6).toNat
def shr64 (a b : Word) : Word := a >>> (b.extractLsb' 0 6).toNat
def sar64 (a b : Word) : Word := a.sshiftRight (b.extractLsb' 0 6).toNat

/-- Word shifts use the low 5 bits of the amount and the low word of the value (R401, R402). -/
def shl32 (a b : Word) : Word := wordResult (low32 a <<< (b.extractLsb' 0 5).toNat)
def shr32 (a b : Word) : Word := wordResult (low32 a >>> (b.extractLsb' 0 5).toNat)
def sar32 (a b : Word) : Word := wordResult ((low32 a).sshiftRight (b.extractLsb' 0 5).toNat)

/-- Word sum and difference (R428, R429). -/
def add32 (a b : Word) : Word := wordResult (low32 (a + b))
def sub32 (a b : Word) : Word := wordResult (low32 (a - b))

/-! ## Upper immediates -/

/-- LUI (R403). -/
def execLui (rd : Reg) (imm : BitVec 20) (s : State) : Result := s.result rd (upperImm imm) 4#64
/-- AUIPC (R404). -/
def execAuipc (rd : Reg) (imm : BitVec 20) (s : State) : Result := s.result rd (s.pc + upperImm imm) 4#64

/-! ## OP-IMM -/

/-- ADDI (R405). -/
def execAddi (rd rs1 : Reg) (imm : BitVec 12) (s : State) : Result := s.result rd (s.readX rs1 + sext imm) 4#64
/-- SLTI (R406). -/
def execSlti (rd rs1 : Reg) (imm : BitVec 12) (s : State) : Result :=
  s.result rd (boolWord ((s.readX rs1).slt (sext imm))) 4#64
/-- SLTIU (R407). -/
def execSltiu (rd rs1 : Reg) (imm : BitVec 12) (s : State) : Result :=
  s.result rd (boolWord ((s.readX rs1).ult (sext imm))) 4#64
/-- XORI (R408). -/
def execXori (rd rs1 : Reg) (imm : BitVec 12) (s : State) : Result := s.result rd (s.readX rs1 ^^^ sext imm) 4#64
/-- ORI (R409). -/
def execOri (rd rs1 : Reg) (imm : BitVec 12) (s : State) : Result := s.result rd (s.readX rs1 ||| sext imm) 4#64
/-- ANDI (R410). -/
def execAndi (rd rs1 : Reg) (imm : BitVec 12) (s : State) : Result := s.result rd (s.readX rs1 &&& sext imm) 4#64
/-- SLLI (R411). -/
def execSlli (rd rs1 : Reg) (shamt : BitVec 6) (s : State) : Result :=
  s.result rd (shl64 (s.readX rs1) (zext shamt)) 4#64
/-- SRLI (R412). -/
def execSrli (rd rs1 : Reg) (shamt : BitVec 6) (s : State) : Result :=
  s.result rd (shr64 (s.readX rs1) (zext shamt)) 4#64
/-- SRAI (R413). -/
def execSrai (rd rs1 : Reg) (shamt : BitVec 6) (s : State) : Result :=
  s.result rd (sar64 (s.readX rs1) (zext shamt)) 4#64

/-! ## OP -/

/-- ADD (R414). -/
def execAdd (rd rs1 rs2 : Reg) (s : State) : Result := s.result rd (s.readX rs1 + s.readX rs2) 4#64
/-- SUB (R415). -/
def execSub (rd rs1 rs2 : Reg) (s : State) : Result := s.result rd (s.readX rs1 - s.readX rs2) 4#64
/-- SLL (R416). -/
def execSll (rd rs1 rs2 : Reg) (s : State) : Result := s.result rd (shl64 (s.readX rs1) (s.readX rs2)) 4#64
/-- SLT (R417). -/
def execSlt (rd rs1 rs2 : Reg) (s : State) : Result :=
  s.result rd (boolWord ((s.readX rs1).slt (s.readX rs2))) 4#64
/-- SLTU (R418). -/
def execSltu (rd rs1 rs2 : Reg) (s : State) : Result :=
  s.result rd (boolWord ((s.readX rs1).ult (s.readX rs2))) 4#64
/-- XOR (R419). -/
def execXor (rd rs1 rs2 : Reg) (s : State) : Result := s.result rd (s.readX rs1 ^^^ s.readX rs2) 4#64
/-- SRL (R420). -/
def execSrl (rd rs1 rs2 : Reg) (s : State) : Result := s.result rd (shr64 (s.readX rs1) (s.readX rs2)) 4#64
/-- SRA (R421). -/
def execSra (rd rs1 rs2 : Reg) (s : State) : Result := s.result rd (sar64 (s.readX rs1) (s.readX rs2)) 4#64
/-- OR (R422). -/
def execOr (rd rs1 rs2 : Reg) (s : State) : Result := s.result rd (s.readX rs1 ||| s.readX rs2) 4#64
/-- AND (R423). -/
def execAnd (rd rs1 rs2 : Reg) (s : State) : Result := s.result rd (s.readX rs1 &&& s.readX rs2) 4#64

/-! ## OP-IMM-32 -/

/-- ADDIW (R424). -/
def execAddiw (rd rs1 : Reg) (imm : BitVec 12) (s : State) : Result :=
  s.result rd (add32 (s.readX rs1) (sext imm)) 4#64
/-- SLLIW (R425). -/
def execSlliw (rd rs1 : Reg) (shamt : BitVec 5) (s : State) : Result :=
  s.result rd (shl32 (s.readX rs1) (zext shamt)) 4#64
/-- SRLIW (R426). -/
def execSrliw (rd rs1 : Reg) (shamt : BitVec 5) (s : State) : Result :=
  s.result rd (shr32 (s.readX rs1) (zext shamt)) 4#64
/-- SRAIW (R427). -/
def execSraiw (rd rs1 : Reg) (shamt : BitVec 5) (s : State) : Result :=
  s.result rd (sar32 (s.readX rs1) (zext shamt)) 4#64

/-! ## OP-32 -/

/-- ADDW (R428). -/
def execAddw (rd rs1 rs2 : Reg) (s : State) : Result := s.result rd (add32 (s.readX rs1) (s.readX rs2)) 4#64
/-- SUBW (R429). -/
def execSubw (rd rs1 rs2 : Reg) (s : State) : Result := s.result rd (sub32 (s.readX rs1) (s.readX rs2)) 4#64
/-- SLLW (R430). -/
def execSllw (rd rs1 rs2 : Reg) (s : State) : Result := s.result rd (shl32 (s.readX rs1) (s.readX rs2)) 4#64
/-- SRLW (R431). -/
def execSrlw (rd rs1 rs2 : Reg) (s : State) : Result := s.result rd (shr32 (s.readX rs1) (s.readX rs2)) 4#64
/-- SRAW (R432). -/
def execSraw (rd rs1 rs2 : Reg) (s : State) : Result := s.result rd (sar32 (s.readX rs1) (s.readX rs2)) 4#64

end Sys2Proof.Machine
end

