-- ==== Sys2Proof/Machine/LoadStore.lean ====
section
/-! DEFINITION. Integer loads and stores (spec/42_loadstore.md). -/
namespace Sys2Proof.Machine

namespace State

/-- A load into an integer register: n bytes at ea, extended (R492). With rd = x0 the access is still made. -/
def loadX (s : State) (rd : Reg) (ea : Word) (n : Nat) (extend : Word → Word) (size : Word) : Result :=
  ((s.memRead ea n).bind fun v t => .ok () ((t.writeX rd (extend v.1)).retireTo (s.pc + size))).deliver s

/-- A store of the low n bytes of a value at ea (R492). -/
def store (s : State) (ea : Word) (n : Nat) (v size : Word) : Result :=
  ((s.memWrite ea n v).bind fun _ t => .ok () (t.retireTo (s.pc + size))).deliver s

end State

/-- The low w bits of a loaded value, sign-extended (R493). -/
def signLoad (w : Nat) (v : Word) : Word := sext (v.extractLsb' 0 w)

/-- The low w bits of a loaded value, zero-extended (R497). -/
def zeroLoad (w : Nat) (v : Word) : Word := zext (v.extractLsb' 0 w)

/-- LB (R493). -/
def execLb (rd rs1 : Reg) (imm : BitVec 12) (s : State) : Result :=
  s.loadX rd (s.effAddr rs1 imm) 1 (signLoad 8) 4#64
/-- LH (R494). -/
def execLh (rd rs1 : Reg) (imm : BitVec 12) (s : State) : Result :=
  s.loadX rd (s.effAddr rs1 imm) 2 (signLoad 16) 4#64
/-- LW (R495). -/
def execLw (rd rs1 : Reg) (imm : BitVec 12) (s : State) : Result :=
  s.loadX rd (s.effAddr rs1 imm) 4 (signLoad 32) 4#64
/-- LD (R496). -/
def execLd (rd rs1 : Reg) (imm : BitVec 12) (s : State) : Result :=
  s.loadX rd (s.effAddr rs1 imm) 8 id 4#64
/-- LBU (R497). -/
def execLbu (rd rs1 : Reg) (imm : BitVec 12) (s : State) : Result :=
  s.loadX rd (s.effAddr rs1 imm) 1 (zeroLoad 8) 4#64
/-- LHU (R498). -/
def execLhu (rd rs1 : Reg) (imm : BitVec 12) (s : State) : Result :=
  s.loadX rd (s.effAddr rs1 imm) 2 (zeroLoad 16) 4#64
/-- LWU (R499). -/
def execLwu (rd rs1 : Reg) (imm : BitVec 12) (s : State) : Result :=
  s.loadX rd (s.effAddr rs1 imm) 4 (zeroLoad 32) 4#64
/-- SB (R501). -/
def execSb (rs1 rs2 : Reg) (imm : BitVec 12) (s : State) : Result :=
  s.store (s.effAddr rs1 imm) 1 (s.readX rs2) 4#64
/-- SH (R502). -/
def execSh (rs1 rs2 : Reg) (imm : BitVec 12) (s : State) : Result :=
  s.store (s.effAddr rs1 imm) 2 (s.readX rs2) 4#64
/-- SW (R503). -/
def execSw (rs1 rs2 : Reg) (imm : BitVec 12) (s : State) : Result :=
  s.store (s.effAddr rs1 imm) 4 (s.readX rs2) 4#64
/-- SD (R504). -/
def execSd (rs1 rs2 : Reg) (imm : BitVec 12) (s : State) : Result :=
  s.store (s.effAddr rs1 imm) 8 (s.readX rs2) 4#64

end Sys2Proof.Machine
end

