-- ==== Sys2Proof/Machine/System.lean ====
section
/-! DEFINITION. System, fence and CSR instructions (spec/47_system.md). -/
namespace Sys2Proof.Machine

/-- The raw bits of an instruction, the trap value if it is illegal (R822). -/
def rawBits (i : Instr) : Word := (encode i).raw

namespace State

/-- The environment-call exception of the current mode (R700). -/
def ecallExc (s : State) : Exc :=
  match s.priv with
  | .U => .ecallFromU
  | .S => .ecallFromS
  | .M => .ecallFromM

/-- An instruction allowed in M always, in S unless a bit of mstatus traps it, and never in U (R703 to R705, R720). -/
def allowedBelowM (s : State) (trapsInS : Bool) : Bool :=
  match s.priv with
  | .U => false
  | .S => !trapsInS
  | .M => true

/-- A CSR instruction (R711, R713): the check, then rd gets the old value and the CSR the new one, if the instruction writes.
The write comes after the retirement, so a write to minstret is not followed by the instruction's own increment (R112). -/
def csrOp (s : State) (bits : Word) (rd : Reg) (csr : BitVec 12) (writes : Bool) (new : Word → Word) : Result :=
  match s.csrAccess csr writes with
  | none => s.illegal bits
  | some c =>
    let t := (s.writeX rd (s.readCsr c)).retireTo (s.pc + 4#64)
    .next (if writes then t.writeCsr c (new (s.csrBase c)) else t)

end State

/-- ECALL (R700). It never retires: it takes its exception. -/
def execEcall (s : State) : Result := s.raiseExc s.ecallExc 0#64
/-- EBREAK (R701). -/
def execEbreak (s : State) : Result := s.raiseExc .breakpoint s.pc
/-- MRET (R702). -/
def execMret (s : State) : Result := if s.priv = .M then .next s.returnM else s.illegal (rawBits .mret)
/-- SRET (R703). -/
def execSret (s : State) : Result :=
  if s.allowedBelowM s.csr.mstatus.tsr then .next s.returnS else s.illegal (rawBits .sret)
/-- WFI (R704): retire, then wait if the configuration says so; step ends the wait. -/
def execWfi (s : State) : Result :=
  if s.allowedBelowM s.csr.mstatus.tw then .next { s.retireTo (s.pc + 4#64) with waiting := s.cfg.wfiWaits }
  else s.illegal (rawBits .wfi)
/-- SFENCE.VMA (R705, R250). The tests are on the register numbers. -/
def execSfenceVma (rs1 rs2 : Reg) (s : State) : Result :=
  if s.allowedBelowM s.csr.mstatus.tvm then
    .next ((s.flushTlbs (if rs1 = 0#5 then none else some (s.readX rs1))
      (if rs2 = 0#5 then none else some ((s.readX rs2).extractLsb' 0 16))).retireTo (s.pc + 4#64))
  else s.illegal (rawBits (.sfenceVma rs1 rs2))
/-- FENCE (R706): no operation. -/
def execFence (_fm _pred _succ : BitVec 4) (_rs1 _rd : Reg) (s : State) : Result := .next (s.retireTo (s.pc + 4#64))
/-- FENCE.I (R707): every later fetch sees every earlier store, and a fetch that faulted before it is squashed (the empty fetchLog
says both). -/
def execFenceI (_imm : BitVec 12) (_rs1 _rd : Reg) (s : State) : Result :=
  .next (State.retireTo { s with fetchLog := [] } (s.pc + 4#64))

/-- CSRRW (R714): always writes. -/
def execCsrrw (rd : Reg) (csr : BitVec 12) (rs1 : Reg) (s : State) : Result :=
  s.csrOp (rawBits (.csrrw rd csr rs1)) rd csr true fun _ => s.readX rs1
/-- CSRRS (R715): writes iff rs1 is not x0. -/
def execCsrrs (rd : Reg) (csr : BitVec 12) (rs1 : Reg) (s : State) : Result :=
  s.csrOp (rawBits (.csrrs rd csr rs1)) rd csr (rs1 != 0#5) fun old => old ||| s.readX rs1
/-- CSRRC (R716): writes iff rs1 is not x0. -/
def execCsrrc (rd : Reg) (csr : BitVec 12) (rs1 : Reg) (s : State) : Result :=
  s.csrOp (rawBits (.csrrc rd csr rs1)) rd csr (rs1 != 0#5) fun old => old &&& ~~~s.readX rs1
/-- CSRRWI (R717): always writes. -/
def execCsrrwi (rd : Reg) (csr : BitVec 12) (uimm : BitVec 5) (s : State) : Result :=
  s.csrOp (rawBits (.csrrwi rd csr uimm)) rd csr true fun _ => zext uimm
/-- CSRRSI (R718): writes iff uimm is not 0. -/
def execCsrrsi (rd : Reg) (csr : BitVec 12) (uimm : BitVec 5) (s : State) : Result :=
  s.csrOp (rawBits (.csrrsi rd csr uimm)) rd csr (uimm != 0#5) fun old => old ||| zext uimm
/-- CSRRCI (R719): writes iff uimm is not 0. -/
def execCsrrci (rd : Reg) (csr : BitVec 12) (uimm : BitVec 5) (s : State) : Result :=
  s.csrOp (rawBits (.csrrci rd csr uimm)) rd csr (uimm != 0#5) fun old => old &&& ~~~zext uimm

end Sys2Proof.Machine
end

