-- ==== Sys2Proof/Machine/FpShapes.lean ====
section
/-! DEFINITION. The shared shapes of the FP instructions (spec/45_fp_single.md R575, spec/46_fp_double.md R650). -/
namespace Sys2Proof.Machine

namespace State

/-- An FP instruction is illegal while FS is Off (R712). -/
def fpGuard (s : State) (bits : Word) (k : Result) : Result := if s.fpEnabled then k else s.illegal bits

/-- An FP instruction with an rm field is also illegal if its rounding mode is invalid (R563). -/
def fpRounded (s : State) (bits : Word) (rm : BitVec 3) (k : RoundingMode → Result) : Result :=
  s.fpGuard bits
    (match s.roundingMode rm with
     | some m => k m
     | none => s.illegal bits)

/-- A single-precision result, boxed, with its flags (R561, R566). -/
def resultS (s : State) (rd : Reg) (r : BitVec 32) (flags : FFlags) : Result :=
  .next (((s.writeF rd (boxS r)).accrue flags).retireTo (s.pc + 4#64))

/-- A double-precision result with its flags (R650). -/
def resultD (s : State) (rd : Reg) (r : BitVec 64) (flags : FFlags) : Result :=
  .next (((s.writeF rd r).accrue flags).retireTo (s.pc + 4#64))

/-- An integer-register result with its flags (R577). -/
def resultX (s : State) (rd : Reg) (v : Word) (flags : FFlags) : Result :=
  .next (((s.writeX rd v).accrue flags).retireTo (s.pc + 4#64))

/-- A load of an FP register: n bytes at ea, made into the register's 64 bits (R581, R651). -/
def loadF (s : State) (rd : Reg) (ea : Word) (n : Nat) (make : Word → Word) (size : Word) : Result :=
  ((s.memRead ea n).bind fun v t => .ok () ((t.writeF rd (make v.1)).retireTo (s.pc + size))).deliver s

end State

/-- The value of a single and of a double pattern. -/
def valS (a : BitVec 32) : FpVal := FpFmt.single.unpack a.toNat
def valD (a : BitVec 64) : FpVal := FpFmt.double.unpack a.toNat

/-! ## Single-precision operations on patterns: result and flags -/

def bitsS (r : Nat × FFlags) : BitVec 32 × FFlags := (BitVec.ofNat 32 r.1, r.2)
def bitsD (r : Nat × FFlags) : BitVec 64 × FFlags := (BitVec.ofNat 64 r.1, r.2)

def addS (m : RoundingMode) (a b : BitVec 32) : BitVec 32 × FFlags := bitsS (fpAddVal .single m (valS a) (valS b))
def subS (m : RoundingMode) (a b : BitVec 32) : BitVec 32 × FFlags := bitsS (fpAddVal .single m (valS a) (valS b).neg)
def mulS (m : RoundingMode) (a b : BitVec 32) : BitVec 32 × FFlags := bitsS (fpMulVal .single m (valS a) (valS b))
def divS (m : RoundingMode) (a b : BitVec 32) : BitVec 32 × FFlags := bitsS (fpDivVal .single m (valS a) (valS b))
def sqrtS (m : RoundingMode) (a : BitVec 32) : BitVec 32 × FFlags := bitsS (fpSqrtVal .single m (valS a))
/-- (±a)·b ± c: the negations of R583 to R586 are of the exact product and of the addend. -/
def fmaS (m : RoundingMode) (negProduct negAddend : Bool) (a b c : BitVec 32) : BitVec 32 × FFlags :=
  bitsS (fpFmaVal .single m (if negProduct then (valS a).neg else valS a) (valS b)
    (if negAddend then (valS c).neg else valS c))
def minmaxS (wantMax : Bool) (a b : BitVec 32) : BitVec 32 × FFlags := bitsS (fpMinMax .single wantMax a.toNat b.toNat)

/-! ## Double-precision operations on patterns -/

def addD (m : RoundingMode) (a b : BitVec 64) : BitVec 64 × FFlags := bitsD (fpAddVal .double m (valD a) (valD b))
def subD (m : RoundingMode) (a b : BitVec 64) : BitVec 64 × FFlags := bitsD (fpAddVal .double m (valD a) (valD b).neg)
def mulD (m : RoundingMode) (a b : BitVec 64) : BitVec 64 × FFlags := bitsD (fpMulVal .double m (valD a) (valD b))
def divD (m : RoundingMode) (a b : BitVec 64) : BitVec 64 × FFlags := bitsD (fpDivVal .double m (valD a) (valD b))
def sqrtD (m : RoundingMode) (a : BitVec 64) : BitVec 64 × FFlags := bitsD (fpSqrtVal .double m (valD a))
def fmaD (m : RoundingMode) (negProduct negAddend : Bool) (a b c : BitVec 64) : BitVec 64 × FFlags :=
  bitsD (fpFmaVal .double m (if negProduct then (valD a).neg else valD a) (valD b)
    (if negAddend then (valD c).neg else valD c))
def minmaxD (wantMax : Bool) (a b : BitVec 64) : BitVec 64 × FFlags := bitsD (fpMinMax .double wantMax a.toNat b.toNat)

/-! ## Integer targets and sources of conversions (R572, R573) -/

/-- The bounds of the integer types. -/
def loW : Int := -2 ^ 31
def hiW : Int := 2 ^ 31 - 1
def hiWU : Int := 2 ^ 32 - 1
def loL : Int := -2 ^ 63
def hiL : Int := 2 ^ 63 - 1
def hiLU : Int := 2 ^ 64 - 1

/-- A 32-bit integer result, sign-extended (also for WU, R572). -/
def int32Result (r : Int × FFlags) : Word × FFlags := (wordResult (BitVec.ofInt 32 r.1), r.2)
/-- A 64-bit integer result. -/
def int64Result (r : Int × FFlags) : Word × FFlags := (BitVec.ofInt 64 r.1, r.2)

/-- The integers a register holds (R573). -/
def sint32 (v : Word) : Int := (low32 v).toInt
def uint32 (v : Word) : Int := ((low32 v).toNat : Int)
def sint64 (v : Word) : Int := v.toInt
def uint64 (v : Word) : Int := (v.toNat : Int)

/-- FP to integer. -/
def toIntS (m : RoundingMode) (lo hi : Int) (a : BitVec 32) : Int × FFlags := fpToInt .single m lo hi a.toNat
def toIntD (m : RoundingMode) (lo hi : Int) (a : BitVec 64) : Int × FFlags := fpToInt .double m lo hi a.toNat
/-- Integer to FP. -/
def ofIntS (m : RoundingMode) (n : Int) : BitVec 32 × FFlags := bitsS (fpOfInt .single m n)
def ofIntD (m : RoundingMode) (n : Int) : BitVec 64 × FFlags := bitsD (fpOfInt .double m n)
/-- Between the formats. -/
def doubleToSingle (m : RoundingMode) (a : BitVec 64) : BitVec 32 × FFlags := bitsS (fpConvert .double .single m a.toNat)
def singleToDouble (m : RoundingMode) (a : BitVec 32) : BitVec 64 × FFlags := bitsD (fpConvert .single .double m a.toNat)

end Sys2Proof.Machine
end

