-- ==== Sys2Proof/Machine/Compressed.lean ====
section
/-! DEFINITION. Compressed instructions (spec/48_compressed.md): each has the effect of its expansion with a size of 2 (R740). -/
namespace Sys2Proof.Machine

/-! ## Quadrant 0 -/

/-- C.ADDI4SPN (R744). -/
def execCAddi4spn (rd' : CReg) (nzuimm : BitVec 10) (s : State) : Result :=
  s.result (fullReg rd') (s.readX sp + zext nzuimm) 2#64
/-- C.FLD (R745). -/
def execCFld (rd' rs1' : CReg) (uimm : BitVec 8) (s : State) : Result :=
  s.fpGuard (rawBits (.cFld rd' rs1' uimm)) (s.loadF (fullReg rd') (s.effAddrU (fullReg rs1') uimm) 8 id 2#64)
/-- C.LW (R746). -/
def execCLw (rd' rs1' : CReg) (uimm : BitVec 7) (s : State) : Result :=
  s.loadX (fullReg rd') (s.effAddrU (fullReg rs1') uimm) 4 (signLoad 32) 2#64
/-- C.LD (R747). -/
def execCLd (rd' rs1' : CReg) (uimm : BitVec 8) (s : State) : Result :=
  s.loadX (fullReg rd') (s.effAddrU (fullReg rs1') uimm) 8 id 2#64
/-- C.FSD (R748). -/
def execCFsd (rs1' rs2' : CReg) (uimm : BitVec 8) (s : State) : Result :=
  s.fpGuard (rawBits (.cFsd rs1' rs2' uimm))
    (s.store (s.effAddrU (fullReg rs1') uimm) 8 (s.readF (fullReg rs2')) 2#64)
/-- C.SW (R749). -/
def execCSw (rs1' rs2' : CReg) (uimm : BitVec 7) (s : State) : Result :=
  s.store (s.effAddrU (fullReg rs1') uimm) 4 (s.readX (fullReg rs2')) 2#64
/-- C.SD (R750). -/
def execCSd (rs1' rs2' : CReg) (uimm : BitVec 8) (s : State) : Result :=
  s.store (s.effAddrU (fullReg rs1') uimm) 8 (s.readX (fullReg rs2')) 2#64

/-! ## Quadrant 1 -/

/-- C.NOP (R751), also with nzimm ≠ 0 (R743). -/
def execCNop (_nzimm : BitVec 6) (s : State) : Result := .next (s.retireTo (s.pc + 2#64))
/-- C.ADDI (R752). -/
def execCAddi (rd : Reg) (nzimm : BitVec 6) (s : State) : Result := s.result rd (s.readX rd + sext nzimm) 2#64
/-- C.ADDIW (R753). -/
def execCAddiw (rd : Reg) (imm : BitVec 6) (s : State) : Result := s.result rd (add32 (s.readX rd) (sext imm)) 2#64
/-- C.LI (R754). -/
def execCLi (rd : Reg) (imm : BitVec 6) (s : State) : Result := s.result rd (sext imm) 2#64
/-- C.ADDI16SP (R755). -/
def execCAddi16sp (nzimm : BitVec 10) (s : State) : Result := s.result sp (s.readX sp + sext nzimm) 2#64
/-- C.LUI (R756). -/
def execCLui (rd : Reg) (nzimm : BitVec 6) (s : State) : Result := s.result rd (upperImm nzimm) 2#64
/-- C.SRLI (R757). -/
def execCSrli (rd' : CReg) (shamt : BitVec 6) (s : State) : Result :=
  s.result (fullReg rd') (shr64 (s.readX (fullReg rd')) (zext shamt)) 2#64
/-- C.SRAI (R758). -/
def execCSrai (rd' : CReg) (shamt : BitVec 6) (s : State) : Result :=
  s.result (fullReg rd') (sar64 (s.readX (fullReg rd')) (zext shamt)) 2#64
/-- C.ANDI (R759). -/
def execCAndi (rd' : CReg) (imm : BitVec 6) (s : State) : Result :=
  s.result (fullReg rd') (s.readX (fullReg rd') &&& sext imm) 2#64
/-- C.SUB (R760). -/
def execCSub (rd' rs2' : CReg) (s : State) : Result :=
  s.result (fullReg rd') (s.readX (fullReg rd') - s.readX (fullReg rs2')) 2#64
/-- C.XOR (R761). -/
def execCXor (rd' rs2' : CReg) (s : State) : Result :=
  s.result (fullReg rd') (s.readX (fullReg rd') ^^^ s.readX (fullReg rs2')) 2#64
/-- C.OR (R762). -/
def execCOr (rd' rs2' : CReg) (s : State) : Result :=
  s.result (fullReg rd') (s.readX (fullReg rd') ||| s.readX (fullReg rs2')) 2#64
/-- C.AND (R763). -/
def execCAnd (rd' rs2' : CReg) (s : State) : Result :=
  s.result (fullReg rd') (s.readX (fullReg rd') &&& s.readX (fullReg rs2')) 2#64
/-- C.SUBW (R764). -/
def execCSubw (rd' rs2' : CReg) (s : State) : Result :=
  s.result (fullReg rd') (sub32 (s.readX (fullReg rd')) (s.readX (fullReg rs2'))) 2#64
/-- C.ADDW (R765). -/
def execCAddw (rd' rs2' : CReg) (s : State) : Result :=
  s.result (fullReg rd') (add32 (s.readX (fullReg rd')) (s.readX (fullReg rs2'))) 2#64
/-- C.J (R766). -/
def execCJ (offset : BitVec 12) (s : State) : Result := s.jumpAndLink 0#5 (s.pc + sext offset) 2#64
/-- C.BEQZ (R767). -/
def execCBeqz (rs1' : CReg) (offset : BitVec 9) (s : State) : Result :=
  s.branch (s.readX (fullReg rs1') == 0#64) (sext offset) 2#64
/-- C.BNEZ (R768). -/
def execCBnez (rs1' : CReg) (offset : BitVec 9) (s : State) : Result :=
  s.branch (s.readX (fullReg rs1') != 0#64) (sext offset) 2#64

/-! ## Quadrant 2 -/

/-- C.SLLI (R769). -/
def execCSlli (rd : Reg) (shamt : BitVec 6) (s : State) : Result :=
  s.result rd (shl64 (s.readX rd) (zext shamt)) 2#64
/-- C.FLDSP (R770). -/
def execCFldsp (rd : Reg) (uimm : BitVec 9) (s : State) : Result :=
  s.fpGuard (rawBits (.cFldsp rd uimm)) (s.loadF rd (s.effAddrU sp uimm) 8 id 2#64)
/-- C.LWSP (R771). -/
def execCLwsp (rd : Reg) (uimm : BitVec 8) (s : State) : Result :=
  s.loadX rd (s.effAddrU sp uimm) 4 (signLoad 32) 2#64
/-- C.LDSP (R772). -/
def execCLdsp (rd : Reg) (uimm : BitVec 9) (s : State) : Result := s.loadX rd (s.effAddrU sp uimm) 8 id 2#64
/-- C.JR (R773). -/
def execCJr (rs1 : Reg) (s : State) : Result := s.jumpAndLink 0#5 (s.jalrTarget rs1 0#64) 2#64
/-- C.MV (R774). -/
def execCMv (rd rs2 : Reg) (s : State) : Result := s.result rd (s.readX rs2) 2#64
/-- C.EBREAK (R775). -/
def execCEbreak (s : State) : Result := s.raiseExc .breakpoint s.pc
/-- C.JALR (R776). -/
def execCJalr (rs1 : Reg) (s : State) : Result := s.jumpAndLink ra (s.jalrTarget rs1 0#64) 2#64
/-- C.ADD (R777). -/
def execCAdd (rd rs2 : Reg) (s : State) : Result := s.result rd (s.readX rd + s.readX rs2) 2#64
/-- C.FSDSP (R778). -/
def execCFsdsp (rs2 : Reg) (uimm : BitVec 9) (s : State) : Result :=
  s.fpGuard (rawBits (.cFsdsp rs2 uimm)) (s.store (s.effAddrU sp uimm) 8 (s.readF rs2) 2#64)
/-- C.SWSP (R779). -/
def execCSwsp (rs2 : Reg) (uimm : BitVec 8) (s : State) : Result := s.store (s.effAddrU sp uimm) 4 (s.readX rs2) 2#64
/-- C.SDSP (R780). -/
def execCSdsp (rs2 : Reg) (uimm : BitVec 9) (s : State) : Result := s.store (s.effAddrU sp uimm) 8 (s.readX rs2) 2#64

end Sys2Proof.Machine
end

