-- ==== Sys2Proof/Machine/FpDouble.lean ====
section
/-! DEFINITION. Double-precision floating point (spec/46_fp_double.md). -/
namespace Sys2Proof.Machine

/-- FLD (R651). -/
def execFld (rd rs1 : Reg) (imm : BitVec 12) (s : State) : Result :=
  s.fpGuard (rawBits (.fld rd rs1 imm)) (s.loadF rd (s.effAddr rs1 imm) 8 id 4#64)
/-- FSD (R652). -/
def execFsd (rs1 rs2 : Reg) (imm : BitVec 12) (s : State) : Result :=
  s.fpGuard (rawBits (.fsd rs1 rs2 imm)) (s.store (s.effAddr rs1 imm) 8 (s.readF rs2) 4#64)
/-- FMADD.D (R653). -/
def execFmaddD (rm : BitVec 3) (rd rs1 rs2 rs3 : Reg) (s : State) : Result :=
  s.fpRounded (rawBits (.fmaddD rm rd rs1 rs2 rs3)) rm fun m =>
    let r := fmaD m false false (s.readF rs1) (s.readF rs2) (s.readF rs3)
    s.resultD rd r.1 r.2
/-- FMSUB.D (R654). -/
def execFmsubD (rm : BitVec 3) (rd rs1 rs2 rs3 : Reg) (s : State) : Result :=
  s.fpRounded (rawBits (.fmsubD rm rd rs1 rs2 rs3)) rm fun m =>
    let r := fmaD m false true (s.readF rs1) (s.readF rs2) (s.readF rs3)
    s.resultD rd r.1 r.2
/-- FNMSUB.D (R655). -/
def execFnmsubD (rm : BitVec 3) (rd rs1 rs2 rs3 : Reg) (s : State) : Result :=
  s.fpRounded (rawBits (.fnmsubD rm rd rs1 rs2 rs3)) rm fun m =>
    let r := fmaD m true false (s.readF rs1) (s.readF rs2) (s.readF rs3)
    s.resultD rd r.1 r.2
/-- FNMADD.D (R656). -/
def execFnmaddD (rm : BitVec 3) (rd rs1 rs2 rs3 : Reg) (s : State) : Result :=
  s.fpRounded (rawBits (.fnmaddD rm rd rs1 rs2 rs3)) rm fun m =>
    let r := fmaD m true true (s.readF rs1) (s.readF rs2) (s.readF rs3)
    s.resultD rd r.1 r.2
/-- FADD.D (R657). -/
def execFaddD (rm : BitVec 3) (rd rs1 rs2 : Reg) (s : State) : Result :=
  s.fpRounded (rawBits (.faddD rm rd rs1 rs2)) rm fun m =>
    let r := addD m (s.readF rs1) (s.readF rs2)
    s.resultD rd r.1 r.2
/-- FSUB.D (R658). -/
def execFsubD (rm : BitVec 3) (rd rs1 rs2 : Reg) (s : State) : Result :=
  s.fpRounded (rawBits (.fsubD rm rd rs1 rs2)) rm fun m =>
    let r := subD m (s.readF rs1) (s.readF rs2)
    s.resultD rd r.1 r.2
/-- FMUL.D (R659). -/
def execFmulD (rm : BitVec 3) (rd rs1 rs2 : Reg) (s : State) : Result :=
  s.fpRounded (rawBits (.fmulD rm rd rs1 rs2)) rm fun m =>
    let r := mulD m (s.readF rs1) (s.readF rs2)
    s.resultD rd r.1 r.2
/-- FDIV.D (R660). -/
def execFdivD (rm : BitVec 3) (rd rs1 rs2 : Reg) (s : State) : Result :=
  s.fpRounded (rawBits (.fdivD rm rd rs1 rs2)) rm fun m =>
    let r := divD m (s.readF rs1) (s.readF rs2)
    s.resultD rd r.1 r.2
/-- FSQRT.D (R661). -/
def execFsqrtD (rm : BitVec 3) (rd rs1 : Reg) (s : State) : Result :=
  s.fpRounded (rawBits (.fsqrtD rm rd rs1)) rm fun m =>
    let r := sqrtD m (s.readF rs1)
    s.resultD rd r.1 r.2
/-- FSGNJ.D (R662). -/
def execFsgnjD (rd rs1 rs2 : Reg) (s : State) : Result :=
  s.fpGuard (rawBits (.fsgnjD rd rs1 rs2))
    (s.resultD rd ((s.readF rs2).extractLsb' 63 1 ++ (s.readF rs1).extractLsb' 0 63) FFlags.none)
/-- FSGNJN.D (R663). -/
def execFsgnjnD (rd rs1 rs2 : Reg) (s : State) : Result :=
  s.fpGuard (rawBits (.fsgnjnD rd rs1 rs2))
    (s.resultD rd (~~~(s.readF rs2).extractLsb' 63 1 ++ (s.readF rs1).extractLsb' 0 63) FFlags.none)
/-- FSGNJX.D (R664). -/
def execFsgnjxD (rd rs1 rs2 : Reg) (s : State) : Result :=
  s.fpGuard (rawBits (.fsgnjxD rd rs1 rs2))
    (s.resultD rd (((s.readF rs1).extractLsb' 63 1 ^^^ (s.readF rs2).extractLsb' 63 1) ++ (s.readF rs1).extractLsb' 0 63) FFlags.none)
/-- FMIN.D (R665). -/
def execFminD (rd rs1 rs2 : Reg) (s : State) : Result :=
  s.fpGuard (rawBits (.fminD rd rs1 rs2))
    (let r := minmaxD false (s.readF rs1) (s.readF rs2)
     s.resultD rd r.1 r.2)
/-- FMAX.D (R666). -/
def execFmaxD (rd rs1 rs2 : Reg) (s : State) : Result :=
  s.fpGuard (rawBits (.fmaxD rd rs1 rs2))
    (let r := minmaxD true (s.readF rs1) (s.readF rs2)
     s.resultD rd r.1 r.2)
/-- FCVT.S.D (R667). -/
def execFcvtSD (rm : BitVec 3) (rd rs1 : Reg) (s : State) : Result :=
  s.fpRounded (rawBits (.fcvtSD rm rd rs1)) rm fun m =>
    let r := doubleToSingle m (s.readF rs1)
    s.resultS rd r.1 r.2
/-- FCVT.D.S (R668). -/
def execFcvtDS (rm : BitVec 3) (rd rs1 : Reg) (s : State) : Result :=
  s.fpRounded (rawBits (.fcvtDS rm rd rs1)) rm fun m =>
    let r := singleToDouble m (s.readS rs1)
    s.resultD rd r.1 r.2
/-- FEQ.D (R669). -/
def execFeqD (rd rs1 rs2 : Reg) (s : State) : Result :=
  s.fpGuard (rawBits (.feqD rd rs1 rs2))
    (let r := fpFeq .double (s.readF rs1).toNat (s.readF rs2).toNat
     s.resultX rd (boolWord r.1) r.2)
/-- FLT.D (R670). -/
def execFltD (rd rs1 rs2 : Reg) (s : State) : Result :=
  s.fpGuard (rawBits (.fltD rd rs1 rs2))
    (let r := fpFlt .double (s.readF rs1).toNat (s.readF rs2).toNat
     s.resultX rd (boolWord r.1) r.2)
/-- FLE.D (R671). -/
def execFleD (rd rs1 rs2 : Reg) (s : State) : Result :=
  s.fpGuard (rawBits (.fleD rd rs1 rs2))
    (let r := fpFle .double (s.readF rs1).toNat (s.readF rs2).toNat
     s.resultX rd (boolWord r.1) r.2)
/-- FCLASS.D (R672). -/
def execFclassD (rd rs1 : Reg) (s : State) : Result :=
  s.fpGuard (rawBits (.fclassD rd rs1))
    (s.resultX rd (BitVec.ofNat 64 (fpClass .double (s.readF rs1).toNat)) FFlags.none)
/-- FCVT.W.D (R673). -/
def execFcvtWD (rm : BitVec 3) (rd rs1 : Reg) (s : State) : Result :=
  s.fpRounded (rawBits (.fcvtWD rm rd rs1)) rm fun m =>
    let r := int32Result (toIntD m loW hiW (s.readF rs1))
    s.resultX rd r.1 r.2
/-- FCVT.WU.D (R674). -/
def execFcvtWuD (rm : BitVec 3) (rd rs1 : Reg) (s : State) : Result :=
  s.fpRounded (rawBits (.fcvtWuD rm rd rs1)) rm fun m =>
    let r := int32Result (toIntD m 0 hiWU (s.readF rs1))
    s.resultX rd r.1 r.2
/-- FCVT.D.W (R675). -/
def execFcvtDW (rm : BitVec 3) (rd rs1 : Reg) (s : State) : Result :=
  s.fpRounded (rawBits (.fcvtDW rm rd rs1)) rm fun m =>
    let r := ofIntD m (sint32 (s.readX rs1))
    s.resultD rd r.1 r.2
/-- FCVT.D.WU (R676). -/
def execFcvtDWu (rm : BitVec 3) (rd rs1 : Reg) (s : State) : Result :=
  s.fpRounded (rawBits (.fcvtDWu rm rd rs1)) rm fun m =>
    let r := ofIntD m (uint32 (s.readX rs1))
    s.resultD rd r.1 r.2
/-- FCVT.L.D (R677). -/
def execFcvtLD (rm : BitVec 3) (rd rs1 : Reg) (s : State) : Result :=
  s.fpRounded (rawBits (.fcvtLD rm rd rs1)) rm fun m =>
    let r := int64Result (toIntD m loL hiL (s.readF rs1))
    s.resultX rd r.1 r.2
/-- FCVT.LU.D (R678). -/
def execFcvtLuD (rm : BitVec 3) (rd rs1 : Reg) (s : State) : Result :=
  s.fpRounded (rawBits (.fcvtLuD rm rd rs1)) rm fun m =>
    let r := int64Result (toIntD m 0 hiLU (s.readF rs1))
    s.resultX rd r.1 r.2
/-- FMV.X.D (R679). -/
def execFmvXD (rd rs1 : Reg) (s : State) : Result :=
  s.fpGuard (rawBits (.fmvXD rd rs1)) (s.resultX rd (s.readF rs1) FFlags.none)
/-- FCVT.D.L (R680). -/
def execFcvtDL (rm : BitVec 3) (rd rs1 : Reg) (s : State) : Result :=
  s.fpRounded (rawBits (.fcvtDL rm rd rs1)) rm fun m =>
    let r := ofIntD m (sint64 (s.readX rs1))
    s.resultD rd r.1 r.2
/-- FCVT.D.LU (R681). -/
def execFcvtDLu (rm : BitVec 3) (rd rs1 : Reg) (s : State) : Result :=
  s.fpRounded (rawBits (.fcvtDLu rm rd rs1)) rm fun m =>
    let r := ofIntD m (uint64 (s.readX rs1))
    s.resultD rd r.1 r.2
/-- FMV.D.X (R682). -/
def execFmvDX (rd rs1 : Reg) (s : State) : Result :=
  s.fpGuard (rawBits (.fmvDX rd rs1)) (s.resultD rd (s.readX rs1) FFlags.none)

end Sys2Proof.Machine
end

