-- ==== Sys2Proof/Machine/FpSingle.lean ====
section
/-! DEFINITION. Single-precision floating point (spec/45_fp_single.md). -/
namespace Sys2Proof.Machine

/-- FLW (R581). -/
def execFlw (rd rs1 : Reg) (imm : BitVec 12) (s : State) : Result :=
  s.fpGuard (rawBits (.flw rd rs1 imm)) (s.loadF rd (s.effAddr rs1 imm) 4 (fun v => boxS (low32 v)) 4#64)
/-- FSW (R582). -/
def execFsw (rs1 rs2 : Reg) (imm : BitVec 12) (s : State) : Result :=
  s.fpGuard (rawBits (.fsw rs1 rs2 imm)) (s.store (s.effAddr rs1 imm) 4 (s.readF rs2) 4#64)
/-- FMADD.S (R583). -/
def execFmaddS (rm : BitVec 3) (rd rs1 rs2 rs3 : Reg) (s : State) : Result :=
  s.fpRounded (rawBits (.fmaddS rm rd rs1 rs2 rs3)) rm fun m =>
    let r := fmaS m false false (s.readS rs1) (s.readS rs2) (s.readS rs3)
    s.resultS rd r.1 r.2
/-- FMSUB.S (R584). -/
def execFmsubS (rm : BitVec 3) (rd rs1 rs2 rs3 : Reg) (s : State) : Result :=
  s.fpRounded (rawBits (.fmsubS rm rd rs1 rs2 rs3)) rm fun m =>
    let r := fmaS m false true (s.readS rs1) (s.readS rs2) (s.readS rs3)
    s.resultS rd r.1 r.2
/-- FNMSUB.S (R585). -/
def execFnmsubS (rm : BitVec 3) (rd rs1 rs2 rs3 : Reg) (s : State) : Result :=
  s.fpRounded (rawBits (.fnmsubS rm rd rs1 rs2 rs3)) rm fun m =>
    let r := fmaS m true false (s.readS rs1) (s.readS rs2) (s.readS rs3)
    s.resultS rd r.1 r.2
/-- FNMADD.S (R586). -/
def execFnmaddS (rm : BitVec 3) (rd rs1 rs2 rs3 : Reg) (s : State) : Result :=
  s.fpRounded (rawBits (.fnmaddS rm rd rs1 rs2 rs3)) rm fun m =>
    let r := fmaS m true true (s.readS rs1) (s.readS rs2) (s.readS rs3)
    s.resultS rd r.1 r.2
/-- FADD.S (R587). -/
def execFaddS (rm : BitVec 3) (rd rs1 rs2 : Reg) (s : State) : Result :=
  s.fpRounded (rawBits (.faddS rm rd rs1 rs2)) rm fun m =>
    let r := addS m (s.readS rs1) (s.readS rs2)
    s.resultS rd r.1 r.2
/-- FSUB.S (R588). -/
def execFsubS (rm : BitVec 3) (rd rs1 rs2 : Reg) (s : State) : Result :=
  s.fpRounded (rawBits (.fsubS rm rd rs1 rs2)) rm fun m =>
    let r := subS m (s.readS rs1) (s.readS rs2)
    s.resultS rd r.1 r.2
/-- FMUL.S (R589). -/
def execFmulS (rm : BitVec 3) (rd rs1 rs2 : Reg) (s : State) : Result :=
  s.fpRounded (rawBits (.fmulS rm rd rs1 rs2)) rm fun m =>
    let r := mulS m (s.readS rs1) (s.readS rs2)
    s.resultS rd r.1 r.2
/-- FDIV.S (R590). -/
def execFdivS (rm : BitVec 3) (rd rs1 rs2 : Reg) (s : State) : Result :=
  s.fpRounded (rawBits (.fdivS rm rd rs1 rs2)) rm fun m =>
    let r := divS m (s.readS rs1) (s.readS rs2)
    s.resultS rd r.1 r.2
/-- FSQRT.S (R591). -/
def execFsqrtS (rm : BitVec 3) (rd rs1 : Reg) (s : State) : Result :=
  s.fpRounded (rawBits (.fsqrtS rm rd rs1)) rm fun m =>
    let r := sqrtS m (s.readS rs1)
    s.resultS rd r.1 r.2
/-- FSGNJ.S (R592). -/
def execFsgnjS (rd rs1 rs2 : Reg) (s : State) : Result :=
  s.fpGuard (rawBits (.fsgnjS rd rs1 rs2))
    (s.resultS rd ((s.readS rs2).extractLsb' 31 1 ++ (s.readS rs1).extractLsb' 0 31) FFlags.none)
/-- FSGNJN.S (R593). -/
def execFsgnjnS (rd rs1 rs2 : Reg) (s : State) : Result :=
  s.fpGuard (rawBits (.fsgnjnS rd rs1 rs2))
    (s.resultS rd (~~~(s.readS rs2).extractLsb' 31 1 ++ (s.readS rs1).extractLsb' 0 31) FFlags.none)
/-- FSGNJX.S (R594). -/
def execFsgnjxS (rd rs1 rs2 : Reg) (s : State) : Result :=
  s.fpGuard (rawBits (.fsgnjxS rd rs1 rs2))
    (s.resultS rd (((s.readS rs1).extractLsb' 31 1 ^^^ (s.readS rs2).extractLsb' 31 1) ++ (s.readS rs1).extractLsb' 0 31) FFlags.none)
/-- FMIN.S (R595). -/
def execFminS (rd rs1 rs2 : Reg) (s : State) : Result :=
  s.fpGuard (rawBits (.fminS rd rs1 rs2))
    (let r := minmaxS false (s.readS rs1) (s.readS rs2)
     s.resultS rd r.1 r.2)
/-- FMAX.S (R596). -/
def execFmaxS (rd rs1 rs2 : Reg) (s : State) : Result :=
  s.fpGuard (rawBits (.fmaxS rd rs1 rs2))
    (let r := minmaxS true (s.readS rs1) (s.readS rs2)
     s.resultS rd r.1 r.2)
/-- FCVT.W.S (R597). -/
def execFcvtWS (rm : BitVec 3) (rd rs1 : Reg) (s : State) : Result :=
  s.fpRounded (rawBits (.fcvtWS rm rd rs1)) rm fun m =>
    let r := int32Result (toIntS m loW hiW (s.readS rs1))
    s.resultX rd r.1 r.2
/-- FCVT.WU.S (R598). -/
def execFcvtWuS (rm : BitVec 3) (rd rs1 : Reg) (s : State) : Result :=
  s.fpRounded (rawBits (.fcvtWuS rm rd rs1)) rm fun m =>
    let r := int32Result (toIntS m 0 hiWU (s.readS rs1))
    s.resultX rd r.1 r.2
/-- FMV.X.W (R599). -/
def execFmvXW (rd rs1 : Reg) (s : State) : Result :=
  s.fpGuard (rawBits (.fmvXW rd rs1)) (s.resultX rd (wordResult (low32 (s.readF rs1))) FFlags.none)
/-- FEQ.S (R600). -/
def execFeqS (rd rs1 rs2 : Reg) (s : State) : Result :=
  s.fpGuard (rawBits (.feqS rd rs1 rs2))
    (let r := fpFeq .single (s.readS rs1).toNat (s.readS rs2).toNat
     s.resultX rd (boolWord r.1) r.2)
/-- FLT.S (R601). -/
def execFltS (rd rs1 rs2 : Reg) (s : State) : Result :=
  s.fpGuard (rawBits (.fltS rd rs1 rs2))
    (let r := fpFlt .single (s.readS rs1).toNat (s.readS rs2).toNat
     s.resultX rd (boolWord r.1) r.2)
/-- FMV.W.X (R602). -/
def execFmvWX (rd rs1 : Reg) (s : State) : Result :=
  s.fpGuard (rawBits (.fmvWX rd rs1)) (s.resultS rd (low32 (s.readX rs1)) FFlags.none)
/-- FLE.S (R603). -/
def execFleS (rd rs1 rs2 : Reg) (s : State) : Result :=
  s.fpGuard (rawBits (.fleS rd rs1 rs2))
    (let r := fpFle .single (s.readS rs1).toNat (s.readS rs2).toNat
     s.resultX rd (boolWord r.1) r.2)
/-- FCLASS.S (R604). -/
def execFclassS (rd rs1 : Reg) (s : State) : Result :=
  s.fpGuard (rawBits (.fclassS rd rs1))
    (s.resultX rd (BitVec.ofNat 64 (fpClass .single (s.readS rs1).toNat)) FFlags.none)
/-- FCVT.S.W (R605). -/
def execFcvtSW (rm : BitVec 3) (rd rs1 : Reg) (s : State) : Result :=
  s.fpRounded (rawBits (.fcvtSW rm rd rs1)) rm fun m =>
    let r := ofIntS m (sint32 (s.readX rs1))
    s.resultS rd r.1 r.2
/-- FCVT.S.WU (R606). -/
def execFcvtSWu (rm : BitVec 3) (rd rs1 : Reg) (s : State) : Result :=
  s.fpRounded (rawBits (.fcvtSWu rm rd rs1)) rm fun m =>
    let r := ofIntS m (uint32 (s.readX rs1))
    s.resultS rd r.1 r.2
/-- FCVT.L.S (R607). -/
def execFcvtLS (rm : BitVec 3) (rd rs1 : Reg) (s : State) : Result :=
  s.fpRounded (rawBits (.fcvtLS rm rd rs1)) rm fun m =>
    let r := int64Result (toIntS m loL hiL (s.readS rs1))
    s.resultX rd r.1 r.2
/-- FCVT.LU.S (R608). -/
def execFcvtLuS (rm : BitVec 3) (rd rs1 : Reg) (s : State) : Result :=
  s.fpRounded (rawBits (.fcvtLuS rm rd rs1)) rm fun m =>
    let r := int64Result (toIntS m 0 hiLU (s.readS rs1))
    s.resultX rd r.1 r.2
/-- FCVT.S.L (R609). -/
def execFcvtSL (rm : BitVec 3) (rd rs1 : Reg) (s : State) : Result :=
  s.fpRounded (rawBits (.fcvtSL rm rd rs1)) rm fun m =>
    let r := ofIntS m (sint64 (s.readX rs1))
    s.resultS rd r.1 r.2
/-- FCVT.S.LU (R610). -/
def execFcvtSLu (rm : BitVec 3) (rd rs1 : Reg) (s : State) : Result :=
  s.fpRounded (rawBits (.fcvtSLu rm rd rs1)) rm fun m =>
    let r := ofIntS m (uint64 (s.readX rs1))
    s.resultS rd r.1 r.2

end Sys2Proof.Machine
end

