-- ==== Sys2Proof/Machine/MulDiv.lean ====
section
/-! DEFINITION. Multiply and divide (spec/43_muldiv.md). -/
namespace Sys2Proof.Machine

/-- The high half of a 128-bit product (R512). -/
def highHalf (p : BitVec 128) : Word := p.extractLsb' 64 64

/-- Signed quotient: toward zero, −1 for a zero divisor, the dividend on overflow (R510). -/
def quotS {w : Nat} (a b : BitVec w) : BitVec w :=
  if b = 0#w then BitVec.allOnes w
  else if a = BitVec.intMin w ∧ b = BitVec.allOnes w then BitVec.intMin w
  else BitVec.ofInt w (a.toInt.tdiv b.toInt)

/-- Unsigned quotient: all ones for a zero divisor (R510). -/
def quotU {w : Nat} (a b : BitVec w) : BitVec w :=
  if b = 0#w then BitVec.allOnes w else BitVec.ofNat w (a.toNat / b.toNat)

/-- Signed remainder, with the dividend's sign: the dividend for a zero divisor, 0 on overflow (R510). -/
def remS {w : Nat} (a b : BitVec w) : BitVec w :=
  if b = 0#w then a
  else if a = BitVec.intMin w ∧ b = BitVec.allOnes w then 0#w
  else BitVec.ofInt w (a.toInt.tmod b.toInt)

/-- Unsigned remainder: the dividend for a zero divisor (R510). -/
def remU {w : Nat} (a b : BitVec w) : BitVec w := if b = 0#w then a else BitVec.ofNat w (a.toNat % b.toNat)

/-- A word operation on the low words, sign-extended (R510). -/
def wordOp (f : BitVec 32 → BitVec 32 → BitVec 32) (a b : Word) : Word := wordResult (f (low32 a) (low32 b))

/-- MUL (R514). -/
def execMul (rd rs1 rs2 : Reg) (s : State) : Result := s.result rd (s.readX rs1 * s.readX rs2) 4#64
/-- MULH (R515). -/
def execMulh (rd rs1 rs2 : Reg) (s : State) : Result :=
  s.result rd (highHalf ((s.readX rs1).signExtend 128 * (s.readX rs2).signExtend 128)) 4#64
/-- MULHSU (R516). -/
def execMulhsu (rd rs1 rs2 : Reg) (s : State) : Result :=
  s.result rd (highHalf ((s.readX rs1).signExtend 128 * (s.readX rs2).setWidth 128)) 4#64
/-- MULHU (R517). -/
def execMulhu (rd rs1 rs2 : Reg) (s : State) : Result :=
  s.result rd (highHalf ((s.readX rs1).setWidth 128 * (s.readX rs2).setWidth 128)) 4#64
/-- DIV (R518). -/
def execDiv (rd rs1 rs2 : Reg) (s : State) : Result := s.result rd (quotS (s.readX rs1) (s.readX rs2)) 4#64
/-- DIVU (R519). -/
def execDivu (rd rs1 rs2 : Reg) (s : State) : Result := s.result rd (quotU (s.readX rs1) (s.readX rs2)) 4#64
/-- REM (R520). -/
def execRem (rd rs1 rs2 : Reg) (s : State) : Result := s.result rd (remS (s.readX rs1) (s.readX rs2)) 4#64
/-- REMU (R521). -/
def execRemu (rd rs1 rs2 : Reg) (s : State) : Result := s.result rd (remU (s.readX rs1) (s.readX rs2)) 4#64
/-- MULW (R522). -/
def execMulw (rd rs1 rs2 : Reg) (s : State) : Result :=
  s.result rd (wordOp (fun a b => a * b) (s.readX rs1) (s.readX rs2)) 4#64
/-- DIVW (R523). -/
def execDivw (rd rs1 rs2 : Reg) (s : State) : Result := s.result rd (wordOp quotS (s.readX rs1) (s.readX rs2)) 4#64
/-- DIVUW (R524). -/
def execDivuw (rd rs1 rs2 : Reg) (s : State) : Result := s.result rd (wordOp quotU (s.readX rs1) (s.readX rs2)) 4#64
/-- REMW (R525). -/
def execRemw (rd rs1 rs2 : Reg) (s : State) : Result := s.result rd (wordOp remS (s.readX rs1) (s.readX rs2)) 4#64
/-- REMUW (R526). -/
def execRemuw (rd rs1 rs2 : Reg) (s : State) : Result := s.result rd (wordOp remU (s.readX rs1) (s.readX rs2)) 4#64

end Sys2Proof.Machine
end

