-- ==== Sys2Proof/Machine/Fetch.lean ====
section
/-! DEFINITION. What a step does around an instruction: the passing of time and the environment, the latched lines, taking an
interrupt, waiting in WFI, and fetching (spec/20_memory.md R202, R203, R264; spec/60_exceptions.md R812, R813). -/
namespace Sys2Proof.Machine

namespace State

/-! ## Time and the environment (R110, R850, R260) -/

/-- The cycles of this step: at least one, the rest a free value (R110, R985, log 5). -/
def cyclesNow (s : State) : Word := 1#64 + BitVec.ofNat 64 (Config.extraCycles s.draws)

/-- DMA writes bytes of RAM; it reaches nothing else and breaks no reservation (R260, R530, D69). -/
def dmaWrite (s : State) : List Host.Cell → State
  | [] => s
  | (a, b) :: rest => (if inRam s.cfg a 1 then s.writeByte a b else s).dmaWrite rest

/-- What the environment does at this tick: interrupt requests reach the PLIC, DMA reaches RAM. -/
def environment (s : State) : State :=
  match s.inputs with
  | [] => s
  | i :: rest =>
    let plic := if i.uartIrq then s.plic.request s.cfg.uartIrq else s.plic
    let plic := if i.virtioIrq then plic.request s.cfg.virtioIrq else plic
    State.dmaWrite { s with inputs := rest, plic := plic } i.dma

/-- The free values of a step have indexes of their own: no step uses as many as 64 (log 5). -/
def drawStride : Nat := 64

/-- The clocks advance: mcycle and mtime by the same number of cycles (R110, R850). -/
def advanceBy (s : State) (n : Word) : State :=
  { s with csr := { s.csr with mcycle := s.csr.mcycle + n }, clint := { s.clint with mtime := s.clint.mtime + n } }

/-- The clocks advance by the cycles of this step. -/
def advance (s : State) : State := { s.advanceBy s.cyclesNow with draws := s.draws + drawStride }

/-- One tick: the clocks, the environment, and the latch of the lines (R812). -/
def tick (s : State) : State := (s.advance.environment.ageLines s.drivenLines).latchLines

/-- The cycles between an instruction's last access and the boundary it ends at: a free value, possibly 0 (R960, log 44). -/
def lateCycles (s : State) : Word := BitVec.ofNat 64 (Config.extraCycles s.draws)

/-- The end of a step's instruction: cycles may pass after its last access, in which the clocks and the environment move on, and
the lines are latched for the boundary (R812, R852, R960; log 44). -/
def endStep (s : State) : State :=
  ((s.advanceBy s.lateCycles).useDraw.environment.noteLines s.drivenLines).latchLines

/-! ## Interrupts and WFI (R704, R811 to R814) -/

/-- The hart waits: it is in WFI and no interrupt is both pending and locally enabled (R704). -/
def stillWaiting (s : State) : Bool := s.waiting && s.mip &&& s.csr.mie == 0#64

/-- The interrupt taken before the next instruction: only at a boundary, or while waiting in WFI (R813). -/
def interruptNow (s : State) : Option Irq := if s.atBoundary || s.waiting then s.pendingIrq else none

/-- Take an interrupt: epc is the address of the next instruction, tval is 0 (R813, R822, R830). -/
def takeInterrupt (s : State) (i : Irq) : State :=
  State.enterTrap { s with waiting := false } (.interrupt i) s.pc 0#64

/-! ## Fetching (R202, R203, R264) -/

/-- The byte at an address before the n newest stores of the log (log 10). -/
def byteFetched (a : Nat) : Nat → List Overwrite → Byte → Byte
  | 0, _, now => now
  | _, [], now => now
  | n + 1, o :: log, now => byteFetched a n log (byteBeforeStore o a now)

/-- The parcel of RAM at a before the n newest stores. -/
def parcelBefore (s : State) (n a : Nat) : BitVec 16 :=
  byteFetched (a + 1) n s.fetchLog (s.byteAt (a + 1)) ++ byteFetched a n s.fetchLog (s.byteAt a)

/-- The parcel a fetch reads from the bus (R202). From RAM it may be what the bytes were before any of the stores since the
last FENCE.I (R264, R265); inside a cycle it is what they are now. -/
def fetchBus (s : State) (pa : Word) : Option (BitVec 16 × State) :=
  match ownerOf s.cfg pa.toNat, (if s.exact then [] else s.fetchLog) with
  | some .ram, e :: log =>
    if inRam s.cfg pa.toNat 2 then
      some (s.parcelBefore (Config.staleFetch s.draws % ((e :: log).length + 1)) pa.toNat, s.useDraw)
    else none
  | _, _ =>
    match s.busRead pa 2 with
    | none => none
    | some (v, t) => some (v.extractLsb' 0 16, t)

/-- What a fetch gives: bits, or the exception with its trap value. -/
abbrev Fetched (α : Type) := Except (Exc × Word) α

/-- Fetch16 (R202). A fetch that faults changes nothing. -/
def fetch16 (s : State) (va : Word) : Fetched (BitVec 16) × State :=
  match s.translate .fetch va with
  | .raise e tval => (.error (e, tval), s)
  | .ok pa t =>
    match t.fetchBus pa with
    | none => (.error (.instructionAccessFault, va), s)
    | some (p, t') => (.ok p, t')

/-- FetchInstr (R203): a second parcel if bits 1:0 of the first are 11. What the fetch of the first parcel did to the TLB and
the A bit stays if the second faults (log 27). -/
def fetchInstr (s : State) : Fetched Code × State :=
  match s.fetch16 s.pc with
  | (.error f, t) => (.error f, t)
  | (.ok lo, t) =>
    if lo.extractLsb' 0 2 = 0b11#2 then
      match t.fetch16 (s.pc + 2#64) with
      | (.error f, u) => (.error f, u)
      | (.ok hi, u) => (.ok (.word (hi ++ lo)), u)
    else (.ok (.half lo), t)

/-! ## One instruction -/

/-- Decode and execute fetched bits: bits that are no instruction are illegal (R330, R825). -/
def execCode (s : State) (c : Code) : Result :=
  match decodeCode c with
  | .error _ => s.illegal c.raw
  | .ok i => exec i s

/-- Fetch and execute the instruction at pc; a fetch exception is the instruction's own (R203, R825). -/
def runInstr (s : State) : Result :=
  match s.fetchInstr with
  | (.error f, t) => t.raiseExc f.1 f.2
  | (.ok c, t) => t.execCode c

/-- After the instruction comes the boundary it ends at. -/
def settle (r : Result) : Result :=
  match r with
  | .next s => .next s.endStep
  | .fault f => .fault f
  | .refused f => .refused f

/-! ## Loading an image (R901) -/

/-- Bytes placed from an address up, as a loader places them: no store of the machine, no access of the bus. -/
def loadBytes (m : Memory) (a : Nat) : List Byte → Memory
  | [] => m
  | b :: rest => loadBytes (m.write a b) (a + 1) rest

/-- A segment placed in RAM; none if it does not fit. What follows its bytes stays as it was (R901, D71). One with no byte at all
fits only at an address of RAM or at its end: R901 does not say what fits (the model's choice, log 43). -/
def loadSegment (s : State) (g : Segment) : Option State :=
  if inRam s.cfg g.addr (max g.bytes.length g.memSize) then some { s with mem := loadBytes s.mem g.addr g.bytes } else none

/-- Execution begins at an address (R900). -/
def enterAt (s : State) (entry : Word) : State := { s with pc := entry, uarch := { s.uarch with fetchPc := entry } }

/-- An image loaded before cycle 0 (R901): a flat image's byte i at the load base + i, an ELF's segments at their addresses and
pc at its entry point. None: the image does not fit in RAM, or the entry point is odd (log 43). -/
def loadImage (s : State) : Image → Option State
  | .flat bytes => s.loadSegment ⟨s.cfg.loadBase.toNat, bytes, bytes.length⟩
  | .elf entry segments =>
    if entry.getLsbD 0 then none else (segments.foldlM loadSegment s).map fun t => t.enterAt entry

/-- The state a run begins in: the reset state of a configuration with an image in RAM; none if the construction refuses the
configuration or the image (R13, R900, R901). -/
def boot? (cfg : Config) (image : Image) : Option State := (State.initial? cfg).bind fun s => s.loadImage image

/-! ## Placing an instruction where the next step fetches it -/

/-- The physical address the next step fetches va from, where it can. -/
def fetchAddress (s : State) (va : Word) : Nat :=
  match s.tick.translate .fetch va with
  | .ok pa _ => pa.toNat
  | .raise _ _ => va.toNat

/-- Two bytes written at an address, as an image is loaded: not a store of the machine (R901). -/
def loadParcel (m : Memory) (a : Nat) (v : Nat) : Memory := loadBytes m a [BitVec.ofNat 8 v, BitVec.ofNat 8 (v / 256)]

/-- The state with an instruction's bits where the next step fetches, and nothing in the way of running it: no ended run, no
wait, no boundary at which an interrupt could come first, no DMA, no older bytes. It stands for loading a program (log 8). -/
def placeWord (s : State) (v : Nat) : State :=
  let s := { s with ended := none, waiting := false, atBoundary := false, inputs := [], fetchLog := [] }
  { s with
    mem := loadParcel (loadParcel s.mem (s.fetchAddress s.pc) (v % 65536)) (s.fetchAddress (s.pc + 2#64)) (v / 65536 % 65536) }

end State
end Sys2Proof.Machine
end

