-- ==== Sys2Proof/Machine/Step.lean ====
section
/-! DEFINITION. One step of the machine. -/
namespace Sys2Proof.Machine

/-- One step: a run that has ended is over (R905); a hart waiting in WFI waits one more tick (R704); an interrupt that may be
taken is taken (R813); otherwise the instruction at pc is fetched and executed, after the clocks and the environment have
moved on. -/
def step (s : State) : Host.Outcome State Fault Refusal :=
  match s.ended with
  | some how => .fault (.runEnded how)
  | none =>
    if s.stillWaiting then .next s.tick
    else
      match s.interruptNow with
      | some i => .next (s.tick.takeInterrupt i)
      | none => State.settle (State.runInstr { s.tick with waiting := false })

/-- s with an instruction of nbits bits stored where step fetches its next instruction, the bits above being 0. -/
def State.withFetchWord (s : State) (nbits w : Nat) : State := s.placeWord (w % 2 ^ nbits)

end Sys2Proof.Machine
end

