-- ==== Sys2Proof/Machine/Predictor.lean ====
section
/-! DEFINITION. The branch prediction unit (spec/70_reset_and_hazards.md R970 to R978): predict for fetch, update for execute.
It decides no architectural value (R960). -/
namespace Sys2Proof.Machine

/-- The pc as the tables are indexed with it: pc >> 1 (D41). -/
def pcIndex (pc : Word) : Nat := pc.toNat / 2

/-! ## Counters and history -/

/-- A 2-bit saturating counter after an outcome (R972). -/
def counterStep (c : Nat) (up : Bool) : Nat := if up then min (c + 1) 3 else c - 1

/-- The reset value of counters and choosers: 01 (R970). -/
def weakly : Nat := 1

/-- The history after an outcome: shifted left, the outcome in bit 0 (R972). -/
def historyStep (bits ghist : Nat) (taken : Bool) : Nat := (2 * ghist + taken.toNat) % 2 ^ bits

/-- A signed number kept within the two's-complement range of a width, −2^(bits−1) to 2^(bits−1) − 1 (R975, R976). The range is the
model's choice (log 38), and so is that a width of 0, which has no number, acts as a width of 1, −1 to 0 (logs 38 and 39). -/
def saturate (bits : Nat) (v : Int) : Int := max (-2 ^ (bits - 1)) (min (2 ^ (bits - 1) - 1) v)

namespace Bpu

/-! ## Direction predictors -/

/-- The index of GShare (R972). -/
def gshareIndex (c : PredictorConfig) (b : Bpu) (pc : Word) : Nat := (pcIndex pc ^^^ b.ghist) % c.tableSize

/-- The index of the per-pc tables (R973, R975, R976). R973 and R976 give Tournament's local and chooser tables and TAGE's base
table no size, and D41 names one TableSize: each has TableSize entries (the model's choice, logs 38 and 39). -/
def localIndex (c : PredictorConfig) (pc : Word) : Nat := pcIndex pc % c.tableSize

def gshareTaken (c : PredictorConfig) (b : Bpu) (pc : Word) : Bool := 2 ≤ b.counters.get weakly (b.gshareIndex c pc)
def localTaken (c : PredictorConfig) (b : Bpu) (pc : Word) : Bool := 2 ≤ b.locals.get weakly (localIndex c pc)
/-- The chooser selects the global component from 2 up (R973). -/
def choosesGlobal (c : PredictorConfig) (b : Bpu) (pc : Word) : Bool := 2 ≤ b.choosers.get weakly (localIndex c pc)

/-- History bit i as +1 (taken) or −1 (R975). -/
def historySign (ghist i : Nat) : Int := if ghist.testBit i then 1 else -1

def perceptron (c : PredictorConfig) (b : Bpu) (pc : Word) : Perceptron := b.weights.get ⟨0, []⟩ (localIndex c pc)

/-- The weighted sum of the history plus the bias (R975). -/
def perceptronSum (c : PredictorConfig) (b : Bpu) (pc : Word) : Int :=
  let p := b.perceptron c pc
  (List.range c.ghistBits).foldl (fun sum i => sum + Table.get 0 p.weights i * historySign b.ghist i) p.bias

/-- Where a pc falls in tagged table t: the index and the tag, over the history of the table's length (R976).
Of a length greater than GHIST_BITS, to which the spec does not relate it, the bits above GHIST_BITS are 0 (the model's choice,
log 39). -/
def tagePlace (c : PredictorConfig) (b : Bpu) (pc : Word) (t : Nat) : Nat × Nat :=
  match c.tageTables[t]? with
  | none => (0, 0)
  | some (len, entries, tagBits) =>
    (Config.tageIndex t (pcIndex pc) (b.ghist % 2 ^ len) % entries, Config.tageTag t (pcIndex pc) (b.ghist % 2 ^ len) % 2 ^ tagBits)

/-- The entry of tagged table t at a pc's index. -/
def tageEntry (c : PredictorConfig) (b : Bpu) (pc : Word) (t : Nat) : Option TageEntry :=
  Table.get none ((b.tagged[t]?).getD []) (b.tagePlace c pc t).1

/-- The longest of the first n tables whose tag hits, with its entry (R976). -/
def tageProvider (c : PredictorConfig) (b : Bpu) (pc : Word) : Nat → Option (Nat × TageEntry)
  | 0 => none
  | n + 1 =>
    match b.tageEntry c pc n with
    | some e => if e.tag = (b.tagePlace c pc n).2 then some (n, e) else b.tageProvider c pc n
    | none => b.tageProvider c pc n

def bimodalTaken (c : PredictorConfig) (b : Bpu) (pc : Word) : Bool := 2 ≤ b.counters.get weakly (localIndex c pc)

/-- What the first n tables and the base predict: the providing table's counter, signed, decides (R976). -/
def tageTaken (c : PredictorConfig) (b : Bpu) (pc : Word) (n : Nat) : Bool :=
  match b.tageProvider c pc n with
  | some (_, e) => 0 ≤ e.counter
  | none => b.bimodalTaken c pc

/-- The predicted direction of a conditional branch whose BTB target is known (R971 to R976). -/
def direction (c : PredictorConfig) (b : Bpu) (pc target : Word) : Bool :=
  match c.kind with
  | .static => target < pc
  | .gshare => b.gshareTaken c pc
  | .tournament => if b.choosesGlobal c pc then b.gshareTaken c pc else b.localTaken c pc
  | .perceptron => 0 ≤ b.perceptronSum c pc
  | .tage => b.tageTaken c pc c.tageTables.length

/-! ## The BTB (R977) -/

/-- The number of sets (D53). A btb_size that is no multiple of BTB_WAYS is rounded down to one (the model's choice, log 38). -/
def btbSets (c : PredictorConfig) : Nat := c.btbSize / c.btbWays
def btbIndex (c : PredictorConfig) (pc : Word) : Nat := pcIndex pc % btbSets c
def btbTag (c : PredictorConfig) (pc : Word) : Nat := pcIndex pc / btbSets c

/-- The entry of a pc; a table with no set holds none. -/
def btbFind (c : PredictorConfig) (b : Bpu) (pc : Word) : Option BtbEntry :=
  if btbSets c = 0 then none else (b.btb.get [] (btbIndex c pc)).find? fun e => e.tag == btbTag c pc

/-- Make an entry the most recent of its set, in place of the pc's old one; the least recent one leaves a full set. -/
def btbPut (c : PredictorConfig) (b : Bpu) (pc : Word) (e : BtbEntry) : Bpu :=
  if btbSets c = 0 then b
  else
    let others := (b.btb.get [] (btbIndex c pc)).filter fun o => o.tag != btbTag c pc
    { b with btb := b.btb.set (btbIndex c pc) ((e :: others).take c.btbWays) }

/-! ## predict (R978) -/

/-- The prediction for a pc (R978): the target if it is predicted taken. Otherwise the next pc is pc + size. -/
def predict (c : PredictorConfig) (b : Bpu) (pc : Word) : Option Word :=
  match b.btbFind c pc with
  | none => none
  | some e =>
    match e.kind with
    | .cond => if b.direction c pc e.target then some e.target else none
    | .jump | .call => some e.target
    | .ret => b.ras.head?

/-- A lookup makes the entry it finds the most recent of its set. -/
def touch (c : PredictorConfig) (b : Bpu) (pc : Word) : Bpu :=
  match b.btbFind c pc with
  | none => b
  | some e => b.btbPut c pc e

/-! ## update (R970) -/

/-- Train the GShare table (R972). -/
def trainGlobal (c : PredictorConfig) (b : Bpu) (pc : Word) (taken : Bool) : Bpu :=
  let i := b.gshareIndex c pc
  { b with counters := b.counters.set i (counterStep (b.counters.get weakly i) taken) }

/-- Train Tournament: both components, and the chooser toward the one that was right when they disagreed (R973, D42).
Whether they disagreed is judged at the update, by the tables and the history of that moment, not by what they told fetch (the
model's choice, log 38). -/
def trainTournament (c : PredictorConfig) (b : Bpu) (pc : Word) (taken : Bool) : Bpu :=
  let i := localIndex c pc
  let g := b.gshareTaken c pc
  let choosers :=
    if g = b.localTaken c pc then b.choosers else b.choosers.set i (counterStep (b.choosers.get weakly i) (g == taken))
  { b.trainGlobal c pc taken with
    locals := b.locals.set i (counterStep (b.locals.get weakly i) taken)
    choosers := choosers }

/-- Train the perceptron on a misprediction or a small sum (R975). The bias saturates as the weights do, and whether the
prediction was wrong is judged by the sum at the update, with the tables and the history of that moment, not by what fetch was
told (both the model's choice, log 38). -/
def trainPerceptron (c : PredictorConfig) (b : Bpu) (pc : Word) (taken : Bool) : Bpu :=
  let sum := b.perceptronSum c pc
  if (decide (0 ≤ sum) != taken) || sum.natAbs < c.theta then
    let p := b.perceptron c pc
    let t : Int := if taken then 1 else -1
    let weights := (List.range c.ghistBits).foldl
      (fun w i => Table.set w i (saturate c.percWeightBits (Table.get 0 w i + t * historySign b.ghist i))) p.weights
    { b with weights := b.weights.set (localIndex c pc) ⟨saturate c.percWeightBits (p.bias + t), weights⟩ }
  else b

/-- Replace the entry of tagged table t at a pc's index. -/
def setTage (c : PredictorConfig) (b : Bpu) (pc : Word) (t : Nat) (e : TageEntry) : Bpu :=
  { b with tagged := b.tagged.modify t fun table => Table.set table (b.tagePlace c pc t).1 (some e) }

/-- Train the provider: its counter, and its usefulness where the next shorter prediction differs. -/
def trainProvider (c : PredictorConfig) (b : Bpu) (pc : Word) (taken : Bool) : Bpu :=
  match b.tageProvider c pc c.tageTables.length with
  | none =>
    let i := localIndex c pc
    { b with counters := b.counters.set i (counterStep (b.counters.get weakly i) taken) }
  | some (t, e) =>
    let useful :=
      if b.tageTaken c pc t = decide (0 ≤ e.counter) then e.useful
      else if decide (0 ≤ e.counter) = taken then min (e.useful + 1) c.tageUsefulMax else e.useful - 1
    b.setTage c pc t { e with counter := saturate c.tageCtrBits (e.counter + if taken then 1 else -1), useful := useful }

/-- The tables longer than the provider that a new entry may go to: those whose entry has usefulness 0 (R976). -/
def tageCandidates (c : PredictorConfig) (b : Bpu) (pc : Word) : List Nat :=
  let first := match b.tageProvider c pc c.tageTables.length with
    | some (t, _) => t + 1
    | none => 0
  (List.range c.tageTables.length).filter fun t => first ≤ t && ((b.tageEntry c pc t).map TageEntry.useful).getD 0 == 0

/-- Train TAGE (R976): the provider; on a misprediction a new entry in a longer table, chosen by the PRNG; every usefulness
counter 0 after each reset interval. Whether the prediction was wrong is judged by the tables and the history at the update,
not by what fetch was told, and the updates that count toward the interval are those of conditional branches, which alone train
the tables; with an interval of 0 the counters are 0 after every such update (all the model's choice, log 39). -/
def trainTage (c : PredictorConfig) (b : Bpu) (prng : Word) (pc : Word) (taken : Bool) : Bpu × Word :=
  let wrong := b.tageTaken c pc c.tageTables.length != taken
  let candidates := b.tageCandidates c pc
  let trained := b.trainProvider c pc taken
  let (allocated, prng) :=
    if wrong && !candidates.isEmpty then
      let draw := Config.prngNext prng
      match candidates[draw.toNat % candidates.length]? with
      | some t => (trained.setTage c pc t ⟨(b.tagePlace c pc t).2, if taken then 0 else -1, 0⟩, draw)
      | none => (trained, draw)
    else (trained, prng)
  let updates := b.updates + 1
  if c.resetInterval ≤ updates then
    ({ allocated with
        updates := 0
        tagged := allocated.tagged.map fun table => table.map fun (i, e) => (i, e.map fun e => { e with useful := 0 }) }, prng)
  else ({ allocated with updates := updates }, prng)

/-- Train the direction predictor and the history on a conditional branch (R970, D40). -/
def trainDirection (c : PredictorConfig) (b : Bpu) (prng : Word) (pc : Word) (taken : Bool) : Bpu × Word :=
  let (trained, prng) :=
    match c.kind with
    | .static => (b, prng)
    | .gshare => (b.trainGlobal c pc taken, prng)
    | .tournament => (b.trainTournament c pc taken, prng)
    | .perceptron => (b.trainPerceptron c pc taken, prng)
    | .tage => b.trainTage c prng pc taken
  ({ trained with ghist := historyStep c.ghistBits b.ghist taken }, prng)

/-- The RAS after a transfer: a call pushes its return address, the oldest entry leaving a full stack; a return pops (R974). -/
def rasStep (c : PredictorConfig) (ras : List Word) (kind : BranchType) (returnAddr : Word) : List Word :=
  match kind with
  | .call => (returnAddr :: ras).take c.rasSize
  | .ret => ras.tail
  | .cond | .jump => ras

/-- The BTB after a transfer: written if it was taken and its target or type was wrong or absent (R977). -/
def btbUpdate (c : PredictorConfig) (b : Bpu) (pc : Word) (kind : BranchType) (taken : Bool) (target : Word) : Bpu :=
  let e : BtbEntry := ⟨btbTag c pc, target, kind⟩
  if taken && b.btbFind c pc != some e then b.btbPut c pc e else b

/-- update, at EX, for every control transfer (R970). -/
def update (c : PredictorConfig) (b : Bpu) (prng : Word) (pc : Word) (kind : BranchType) (taken : Bool)
    (target returnAddr : Word) : Bpu × Word :=
  let (trained, prng) := if kind = .cond then b.trainDirection c prng pc taken else (b, prng)
  let b := trained.btbUpdate c pc kind taken target
  ({ b with ras := rasStep c b.ras kind returnAddr }, prng)

end Bpu
end Sys2Proof.Machine
end

