-- ==== Sys2Proof/Machine/Cache.lean ====
section
/-! DEFINITION. Cache levels, replacement, prefetchers and the DRAM's timing (spec/20_memory.md R280 to R294; spec/
70_reset_and_hazards.md R981 to R983). They hold tags, no data, and decide latencies only (R280). -/
namespace Sys2Proof.Machine

/-! ## Geometry (R281) -/

/-- The number of sets S. -/
def setCount (c : CacheConfig) : Nat := c.sizeBytes / (c.lineBytes * c.ways)
/-- The index of a physical address. -/
def setIndex (c : CacheConfig) (pa : Nat) : Nat := pa / c.lineBytes % setCount c
/-- The tag of a physical address. -/
def lineTag (c : CacheConfig) (pa : Nat) : Nat := pa / (c.lineBytes * setCount c)
/-- The address of the line with a tag in a set. -/
def lineAddress (c : CacheConfig) (tag index : Nat) : Nat := tag * (c.lineBytes * setCount c) + index * c.lineBytes

/-! ## Replacement (R284 to R288) -/

/-- The metadata of a fresh set. -/
def ReplState.reset (p : ReplacementPolicy) (ways : Nat) : ReplState :=
  match p with
  | .lru | .mru => .order (List.range ways)
  | .plru => .tree 0
  | .fifo => .stamps (List.replicate ways 0) 0
  | .random => .none

/-- Set or clear bit k of a set of bits. -/
def setBit (bits k : Nat) (b : Bool) : Nat :=
  if bits.testBit k then (if b then bits else bits - 2 ^ k) else (if b then bits + 2 ^ k else bits)

/-- From a heap node up to the root, point every node away from where the path came from (R285): 1 if it came from the left
child, which is the even one. -/
def plruPointAway (bits : Nat) : Nat → Nat → Nat
  | 0, _ => bits
  | fuel + 1, node => if node ≤ 1 then bits else plruPointAway (setBit bits (node / 2) (node % 2 == 0)) fuel (node / 2)

/-- From a heap node down along the bits to a leaf: the way is the leaf's number less the number of ways (R285). -/
def plruFollow (bits ways : Nat) : Nat → Nat → Nat
  | 0, node => node - ways
  | fuel + 1, node => if ways ≤ node then node - ways else plruFollow bits ways fuel (2 * node + (bits.testBit node).toNat)

/-- The way with the smallest stamp, the lowest such way (R286). -/
def oldestStamp (stamps : List Nat) : Nat := stamps.findIdx fun s => stamps.all fun o => s ≤ o

namespace ReplState

/-- set_access (R284, R285, R287): called on a hit and on an install. -/
def access (r : ReplState) (ways way : Nat) : ReplState :=
  match r with
  | .order l => .order (l.erase way ++ [way])
  | .tree bits => .tree (plruPointAway bits ways (ways + way))
  | .stamps l c => .stamps l c
  | .none => .none

/-- What installing a line in a way records (R286). -/
def installed (r : ReplState) (way : Nat) : ReplState :=
  match r with
  | .stamps l c => .stamps (l.set way c) (c + 1)
  | .order l => .order l
  | .tree bits => .tree bits
  | .none => .none

/-- The victim the policy names, and the generator after it (R284 to R288). -/
def victim (r : ReplState) (p : ReplacementPolicy) (ways : Nat) (prng : Word) : Nat × Word :=
  match p, r with
  | .lru, .order l => (l.headD 0, prng)
  | .mru, .order l => (l.getLastD 0, prng)
  | .plru, .tree bits => (plruFollow bits ways ways 1, prng)
  | .fifo, .stamps l _ => (oldestStamp l, prng)
  | .random, _ => let draw := Config.prngNext prng; (draw.toNat % ways, draw)
  | _, _ => (0, prng)

end ReplState

/-! ## One set -/

namespace CacheSet

/-- A fresh set: every line invalid. -/
def reset (c : CacheConfig) : CacheSet := ⟨List.replicate c.ways ⟨0, .invalid, false⟩, ReplState.reset c.policy c.ways⟩

/-- The way that hits: its line is not invalid and its tag matches (R283). -/
def hitWay (s : CacheSet) (tag : Nat) : Option Nat := s.lines.findIdx? fun l => l.state != .invalid && l.tag == tag

/-- A hit: the policy's access, Dirty on a write; a demand hit clears the prefetched bit (R283, R293). -/
def touch (s : CacheSet) (c : CacheConfig) (way : Nat) (write demand : Bool) : CacheSet :=
  { lines := s.lines.modify way fun l =>
      { l with state := if write then .dirty else l.state, prefetched := l.prefetched && !demand }
    repl := s.repl.access c.ways way }

/-- The way a new line goes to: the lowest invalid one, else the policy's victim (R283). -/
def place (s : CacheSet) (c : CacheConfig) (prng : Word) : Nat × Word :=
  match s.lines.findIdx? fun l => l.state == .invalid with
  | some w => (w, prng)
  | none => s.repl.victim c.policy c.ways prng

/-- Install a line in a way (R283). -/
def install (s : CacheSet) (c : CacheConfig) (way : Nat) (line : CacheLine) : CacheSet :=
  { lines := s.lines.set way line
    repl := (s.repl.installed way).access c.ways way }

end CacheSet

/-! ## The prefetchers (R290 to R294) -/

/-- What the prefetchers observe of a demand access: the pc of the instruction and the address. -/
structure Observed where
  pc   : Word
  addr : Word
  deriving DecidableEq, Repr

/-- A request to a cache level: what the prefetchers observe of it, the physical address, and whether it writes. They observe
nothing of a write-back, which is no access of the instruction that evicts the line, nor of the fill it needs (log 37). -/
structure Request where
  demand : Option Observed
  pa     : Nat
  write  : Bool
  deriving DecidableEq, Repr

/-- The line addresses after a line, degree of them (R291). -/
def nextLines (c : CacheConfig) (addr : Word) : List Word :=
  (List.range c.prefetchDegree).map fun k => BitVec.ofNat 64 ((addr.toNat / c.lineBytes + k + 1) * c.lineBytes)

/-- The Stride entry after an access, and what is prefetched (R292). -/
def strideStep (c : CacheConfig) (threshold : Nat) (e : Option StrideEntry) (r : Observed) : StrideEntry × List Word :=
  match e with
  | some e =>
    if e.pc = r.pc then
      let d := r.addr - e.lastAddr
      let n : StrideEntry :=
        if d = e.stride then { e with confidence := min (e.confidence + 1) 3, lastAddr := r.addr }
        else { e with stride := d, confidence := 0, lastAddr := r.addr }
      (n, if threshold ≤ n.confidence && n.stride != 0#64 then
            (List.range c.prefetchDegree).map fun k => r.addr + n.stride * BitVec.ofNat 64 (k + 1)
          else [])
    else (⟨r.pc, r.addr, 0#64, 0⟩, [])
  | none => (⟨r.pc, r.addr, 0#64, 0⟩, [])

/-- The streams after a demand miss at a line, and whether one was continued (R294). Of several entries that the line continues,
as two misses at one line make, the first of the table is continued: the spec says only that an entry is (the model's choice,
log 37). -/
def streamStep (c : CacheConfig) (k : Cache) (line : Nat) : Cache × Bool :=
  match k.streams.findIdx? fun last => last + 1 == line with
  | some i => ({ k with streams := k.streams.set i line }, true)
  | none =>
    if k.streams.length < c.prefetchTableSize then ({ k with streams := k.streams ++ [line] }, false)
    else
      ({ k with
          streams := k.streams.set k.nextStream line
          nextStream := (k.nextStream + 1) % c.prefetchTableSize }, false)

/-- What a prefetcher does on a demand access: its tables after it, and the addresses it asks for. A Stride table of no entries
holds nothing and asks for nothing: the spec does not say what pc mod 0 is (log 37). -/
def observe (c : CacheConfig) (threshold : Nat) (k : Cache) (r : Observed) (hit wasPrefetched : Bool) : Cache × List Word :=
  match c.prefetcher with
  | .none => (k, [])
  | .nextLine => (k, if hit then [] else nextLines c r.addr)
  | .tagged => (k, if !hit || wasPrefetched then nextLines c r.addr else [])
  | .stride =>
    if c.prefetchTableSize = 0 then (k, [])
    else
      let i := r.pc.toNat % c.prefetchTableSize
      let s := strideStep c threshold (k.stride.get none i) r
      ({ k with stride := k.stride.set i (some s.1) }, s.2)
  | .stream =>
    if hit then (k, [])
    else
      let s := streamStep c k (r.addr.toNat / c.lineBytes)
      (s.1, if s.2 then nextLines c r.addr else [])

/-! ## The DRAM and the bus (R982, R983) -/

/-- The transit time of some bytes: ceil(bytes / width) · latency (R983). -/
def transitTime (t : TimingConfig) (bytes : Nat) : Nat := (bytes + t.busWidthBytes - 1) / t.busWidthBytes * t.busLatencyCycles

/-- The latency of a DRAM access to a row, by the open row (R982). -/
def dramLatency (t : TimingConfig) (openRow : Option Nat) (row : Nat) : Nat :=
  match openRow with
  | some r => if r = row then t.tCAS else t.tPRE + t.tRAS + t.tCAS
  | none => t.tRAS + t.tCAS

namespace Uarch

/-- One DRAM access that transfers some bytes (R982, R983). -/
def dram (u : Uarch) (t : TimingConfig) (pa bytes : Nat) : Nat × Uarch :=
  let row := pa / t.dramRowBytes
  (dramLatency t u.openRow row + transitTime t bytes, { u with openRow := some row })

/-! ## The levels -/

def cache (u : Uarch) : Level → Cache
  | .l1i => u.l1i
  | .l1d => u.l1d
  | .l2 => u.l2
  | .l3 => u.l3

def setCache (u : Uarch) (l : Level) (k : Cache) : Uarch :=
  match l with
  | .l1i => { u with l1i := k }
  | .l1d => { u with l1d := k }
  | .l2 => { u with l2 := k }
  | .l3 => { u with l3 := k }

end Uarch

/-- The configuration of a level. -/
def levelConfig (c : Config) : Level → CacheConfig
  | .l1i => c.l1i
  | .l1d => c.l1d
  | .l2 => c.l2
  | .l3 => c.l3

/-- The enabled levels below and including a first one (R283). -/
def cachePath (c : Config) (first : Level) : List Level := [first, .l2, .l3].filter fun l => (levelConfig c l).enabled

namespace Uarch

/-- The set an address falls in. -/
def setOf (u : Uarch) (c : CacheConfig) (l : Level) (pa : Nat) : CacheSet :=
  (u.cache l).sets.get (CacheSet.reset c) (setIndex c pa)

/-- Replace that set. -/
def putSet (u : Uarch) (c : CacheConfig) (l : Level) (pa : Nat) (s : CacheSet) : Uarch :=
  u.setCache l { u.cache l with sets := (u.cache l).sets.set (setIndex c pa) s }

/-- Count a demand lookup (R289). -/
def count (u : Uarch) (l : Level) (hit : Bool) : Uarch :=
  let k := u.cache l
  u.setCache l (if hit then { k with hits := k.hits + 1 } else { k with misses := k.misses + 1 })

/-- Install a line for an address at a level: the state after it, and the address of the dirty line that had to leave
(R283). -/
def fillLine (u : Uarch) (c : CacheConfig) (l : Level) (pa : Nat) (line : LineState) (prefetched : Bool) :
    Uarch × Option Nat :=
  let s := u.setOf c l pa
  let p := s.place c u.prng
  let victim := (s.lines[p.1]?).getD ⟨0, .invalid, false⟩
  (({ u with prng := p.2 } : Uarch).putSet c l pa (s.install c p.1 ⟨lineTag c pa, line, prefetched⟩),
    if victim.state = .dirty then some (lineAddress c victim.tag (setIndex c pa)) else none)

/-- One prefetch at a level (R290): nothing if it does not translate or the line is present; otherwise the line is installed
as Valid. A dirty line that leaves is written back; nothing of it is waited for. -/
def prefetch (cfg : Config) (l : Level) (tr : Word → Option Nat) (writeBack : Nat → Uarch → Uarch) (u : Uarch) (a : Word) :
    Uarch :=
  let c := levelConfig cfg l
  match tr a with
  | none => u
  | some pa =>
    match (u.setOf c l pa).hitWay (lineTag c pa) with
    | some _ => u
    | none =>
      let f := u.fillLine c l pa .valid true
      match f.2 with
      | none => f.1
      | some victim => writeBack victim f.1

/-- The prefetcher of a level after a lookup (R290): it observes a demand access, and its prefetches follow. -/
def observed (cfg : Config) (l : Level) (tr : Word → Option Nat) (writeBack : Nat → Uarch → Uarch) (r : Request)
    (hit wasPrefetched : Bool) (u : Uarch) : Uarch :=
  match r.demand with
  | none => u
  | some d =>
    let o := observe (levelConfig cfg l) cfg.timing.strideThreshold (u.cache l) d hit wasPrefetched
    o.2.foldl (prefetch cfg l tr writeBack) (u.setCache l o.1)

/-- An access through the levels, then the DRAM: its latency, and the state after it (R283, R981). The line is had from below
before the victim is chosen, and a dirty victim is written back last: a write lookup in the next level, of which its
prefetcher sees nothing (the model's choice, log 37). Each level makes one lookup, of its line that holds the first byte, also
where the access or the line wanted above is wider than that line: R283 does not say how many (the model's choice, log 36).
`tr` gives the RAM address a prefetch address translates to, if any (R245, R290). `bytes` is what a transfer from the DRAM
moves. -/
def access (cfg : Config) (tr : Word → Option Nat) : List Level → Nat → Request → Uarch → Nat × Uarch
  | [], bytes, r, u => u.dram cfg.timing r.pa bytes
  | l :: below, _, r, u =>
    let c := levelConfig cfg l
    let s := u.setOf c l r.pa
    let writeBack : Nat → Uarch → Nat × Uarch := fun a v =>
      access cfg tr below c.lineBytes ⟨none, a, true⟩ v
    match s.hitWay (lineTag c r.pa) with
    | some w =>
      let wasPrefetched := ((s.lines[w]?).map CacheLine.prefetched).getD false
      let v := (u.count l true).putSet c l r.pa (s.touch c w r.write r.demand.isSome)
      (c.latency, v.observed cfg l tr (fun a v => (writeBack a v).2) r true wasPrefetched)
    | none =>
      let fill := access cfg tr below c.lineBytes { r with write := false } (u.count l false)
      let f := fill.2.fillLine c l r.pa (if r.write then .dirty else .valid) false
      let back := match f.2 with
        | none => (0, f.1)
        | some a => writeBack a f.1
      (c.latency + fill.1 + back.1, back.2.observed cfg l tr (fun a v => (writeBack a v).2) r false false)

end Uarch
end Sys2Proof.Machine
end

