-- ==== Sys2Proof/Machine/Class.lean ====
section
/-! DEFINITION. The expansion of a compressed instruction (spec/48_compressed.md R740 to R780), the decoded class (spec/
30_encoding.md R337) and the branch type (R336, spec/41_control.md R470). They decide no architectural value beyond what each
instruction's meaning says; the expansion is what a compressed meaning is held against. -/
namespace Sys2Proof.Machine

/-- The 32-bit instruction a compressed one expands to; none for a 32-bit instruction (R740). -/
def expansion : Instr → Option Instr
  | .cAddi4spn rd' nzuimm => some (.addi (fullReg rd') sp (nzuimm.setWidth 12))
  | .cFld rd' rs1' uimm => some (.fld (fullReg rd') (fullReg rs1') (uimm.setWidth 12))
  | .cLw rd' rs1' uimm => some (.lw (fullReg rd') (fullReg rs1') (uimm.setWidth 12))
  | .cLd rd' rs1' uimm => some (.ld (fullReg rd') (fullReg rs1') (uimm.setWidth 12))
  | .cFsd rs1' rs2' uimm => some (.fsd (fullReg rs1') (fullReg rs2') (uimm.setWidth 12))
  | .cSw rs1' rs2' uimm => some (.sw (fullReg rs1') (fullReg rs2') (uimm.setWidth 12))
  | .cSd rs1' rs2' uimm => some (.sd (fullReg rs1') (fullReg rs2') (uimm.setWidth 12))
  | .cNop nzimm => some (.addi 0#5 0#5 (nzimm.signExtend 12))
  | .cAddi rd nzimm => some (.addi rd rd (nzimm.signExtend 12))
  | .cAddiw rd imm => some (.addiw rd rd (imm.signExtend 12))
  | .cLi rd imm => some (.addi rd 0#5 (imm.signExtend 12))
  | .cAddi16sp nzimm => some (.addi sp sp (nzimm.signExtend 12))
  | .cLui rd nzimm => some (.lui rd (nzimm.signExtend 20))
  | .cSrli rd' shamt => some (.srli (fullReg rd') (fullReg rd') shamt)
  | .cSrai rd' shamt => some (.srai (fullReg rd') (fullReg rd') shamt)
  | .cAndi rd' imm => some (.andi (fullReg rd') (fullReg rd') (imm.signExtend 12))
  | .cSub rd' rs2' => some (.sub (fullReg rd') (fullReg rd') (fullReg rs2'))
  | .cXor rd' rs2' => some (.xor (fullReg rd') (fullReg rd') (fullReg rs2'))
  | .cOr rd' rs2' => some (.or (fullReg rd') (fullReg rd') (fullReg rs2'))
  | .cAnd rd' rs2' => some (.and (fullReg rd') (fullReg rd') (fullReg rs2'))
  | .cSubw rd' rs2' => some (.subw (fullReg rd') (fullReg rd') (fullReg rs2'))
  | .cAddw rd' rs2' => some (.addw (fullReg rd') (fullReg rd') (fullReg rs2'))
  | .cJ offset => some (.jal 0#5 (offset.signExtend 21))
  | .cBeqz rs1' offset => some (.beq (fullReg rs1') 0#5 (offset.signExtend 13))
  | .cBnez rs1' offset => some (.bne (fullReg rs1') 0#5 (offset.signExtend 13))
  | .cSlli rd shamt => some (.slli rd rd shamt)
  | .cFldsp rd uimm => some (.fld rd sp (uimm.setWidth 12))
  | .cLwsp rd uimm => some (.lw rd sp (uimm.setWidth 12))
  | .cLdsp rd uimm => some (.ld rd sp (uimm.setWidth 12))
  | .cJr rs1 => some (.jalr 0#5 rs1 0#12)
  | .cMv rd rs2 => some (.add rd 0#5 rs2)
  | .cEbreak => some (.ebreak)
  | .cJalr rs1 => some (.jalr ra rs1 0#12)
  | .cAdd rd rs2 => some (.add rd rd rs2)
  | .cFsdsp rs2 uimm => some (.fsd sp rs2 (uimm.setWidth 12))
  | .cSwsp rs2 uimm => some (.sw sp rs2 (uimm.setWidth 12))
  | .cSdsp rs2 uimm => some (.sd sp rs2 (uimm.setWidth 12))
  | _ => none

/-- The decoded classes (R337). ILLEGAL is what the decoder rejects. -/
inductive InstrClass where
  | alu | load | store | branch | jump | system | fpLoad | fpStore | fpArith | fpFma | fpDivSqrt | amo | lr | sc | fence
  deriving DecidableEq, Repr

/-- The class of a 32-bit instruction (R337). -/
def wordClass : Instr → InstrClass
  | .lb _ _ _ | .lh _ _ _ | .lw _ _ _ | .ld _ _ _ | .lbu _ _ _ | .lhu _ _ _ | .lwu _ _ _ => .load
  | .sb _ _ _ | .sh _ _ _ | .sw _ _ _ | .sd _ _ _ => .store
  | .beq _ _ _ | .bne _ _ _ | .blt _ _ _ | .bge _ _ _ | .bltu _ _ _ | .bgeu _ _ _ => .branch
  | .jal _ _ | .jalr _ _ _ => .jump
  | .ecall | .ebreak | .mret | .sret | .wfi | .sfenceVma _ _ | .csrrw _ _ _ | .csrrs _ _ _ | .csrrc _ _ _
  | .csrrwi _ _ _ | .csrrsi _ _ _ | .csrrci _ _ _ => .system
  | .flw _ _ _ | .fld _ _ _ => .fpLoad
  | .fsw _ _ _ | .fsd _ _ _ => .fpStore
  | .faddS _ _ _ _ | .fsubS _ _ _ _ | .fmulS _ _ _ _ | .fsgnjS _ _ _ | .fsgnjnS _ _ _ | .fsgnjxS _ _ _
  | .fminS _ _ _ | .fmaxS _ _ _ | .fcvtWS _ _ _ | .fcvtWuS _ _ _ | .fmvXW _ _ | .feqS _ _ _ | .fltS _ _ _
  | .fmvWX _ _ | .fleS _ _ _ | .fclassS _ _ | .fcvtSW _ _ _ | .fcvtSWu _ _ _ | .fcvtLS _ _ _ | .fcvtLuS _ _ _
  | .fcvtSL _ _ _ | .fcvtSLu _ _ _ | .faddD _ _ _ _ | .fsubD _ _ _ _ | .fmulD _ _ _ _ | .fsgnjD _ _ _
  | .fsgnjnD _ _ _ | .fsgnjxD _ _ _ | .fminD _ _ _ | .fmaxD _ _ _ | .fcvtSD _ _ _ | .fcvtDS _ _ _ | .feqD _ _ _
  | .fltD _ _ _ | .fleD _ _ _ | .fclassD _ _ | .fcvtWD _ _ _ | .fcvtWuD _ _ _ | .fcvtDW _ _ _ | .fcvtDWu _ _ _
  | .fcvtLD _ _ _ | .fcvtLuD _ _ _ | .fmvXD _ _ | .fcvtDL _ _ _ | .fcvtDLu _ _ _ | .fmvDX _ _ => .fpArith
  | .fmaddS _ _ _ _ _ | .fmsubS _ _ _ _ _ | .fnmsubS _ _ _ _ _ | .fnmaddS _ _ _ _ _ | .fmaddD _ _ _ _ _
  | .fmsubD _ _ _ _ _ | .fnmsubD _ _ _ _ _ | .fnmaddD _ _ _ _ _ => .fpFma
  | .fdivS _ _ _ _ | .fsqrtS _ _ _ | .fdivD _ _ _ _ | .fsqrtD _ _ _ => .fpDivSqrt
  | .amoswapW _ _ _ _ _ | .amoaddW _ _ _ _ _ | .amoxorW _ _ _ _ _ | .amoandW _ _ _ _ _ | .amoorW _ _ _ _ _
  | .amominW _ _ _ _ _ | .amomaxW _ _ _ _ _ | .amominuW _ _ _ _ _ | .amomaxuW _ _ _ _ _ | .amoswapD _ _ _ _ _
  | .amoaddD _ _ _ _ _ | .amoxorD _ _ _ _ _ | .amoandD _ _ _ _ _ | .amoorD _ _ _ _ _ | .amominD _ _ _ _ _
  | .amomaxD _ _ _ _ _ | .amominuD _ _ _ _ _ | .amomaxuD _ _ _ _ _ => .amo
  | .lrW _ _ _ _ | .lrD _ _ _ _ => .lr
  | .scW _ _ _ _ _ | .scD _ _ _ _ _ => .sc
  | .fence _ _ _ _ _ | .fenceI _ _ _ => .fence
  | _ => .alu

/-- The class of an instruction; a compressed one has the class of its expansion (R337). -/
def instrClass (i : Instr) : InstrClass := wordClass ((expansion i).getD i)

/-- x1 and x5 are the link registers (R470). -/
def isLink (r : Reg) : Bool := r == 1#5 || r == 5#5

/-- The branch type of a 32-bit instruction, if it transfers control: a JAL or JALR with a link destination is a call, a JALR
from a link register with rd = x0 a return (R336, R470). -/
def wordBranchType : Instr → Option BranchType
  | .beq _ _ _ | .bne _ _ _ | .blt _ _ _ | .bge _ _ _ | .bltu _ _ _ | .bgeu _ _ _ => some .cond
  | .jal rd _ => some (if isLink rd then .call else .jump)
  | .jalr rd rs1 _ => some (if isLink rd then .call else if isLink rs1 && rd == 0#5 then .ret else .jump)
  | _ => none

/-- The branch type of an instruction; a compressed one is classified by its expansion (R470). -/
def branchType (i : Instr) : Option BranchType := wordBranchType ((expansion i).getD i)

/-! ## Control signals (R336) -/

/-- Where the value an instruction writes back comes from (R336). -/
inductive WbSource where
  | alu | load | pc4 | csr | fpu
  deriving DecidableEq, Repr

/-- The width in bytes of a data access, and whether what it loads is sign-extended (R336). -/
structure MemCtrl where
  bytes  : Nat
  signed : Bool
  deriving DecidableEq, Repr

/-- The control signals of an instruction (R336, R740): none where it writes nothing back, accesses no data, or transfers no
control. -/
structure Ctrl where
  wbSource   : Option WbSource
  mem        : Option MemCtrl
  branch     : Option BranchType
  compressed : Bool
  deriving DecidableEq, Repr

/-- The writeback source of a 32-bit instruction (R336): loads, LR and AMOs return what they load; SC's flag counts with the
ALU; an FP instruction's result comes from the FPU whichever register it goes to. -/
def wordWbSource (i : Instr) : Option WbSource :=
  match wordClass i with
  | .alu | .sc => some .alu
  | .load | .fpLoad | .lr | .amo => some .load
  | .jump => some .pc4
  | .system =>
    match i with
    | .csrrw _ _ _ | .csrrs _ _ _ | .csrrc _ _ _ | .csrrwi _ _ _ | .csrrsi _ _ _ | .csrrci _ _ _ => some .csr
    | _ => none
  | .fpArith | .fpFma | .fpDivSqrt => some .fpu
  | .store | .fpStore | .branch | .fence => none

/-- The width and sign of a 32-bit instruction's data access (R336), as funct3 gives them: 1, 2, 4 or 8 bytes, and the loads that
extend with zeros are unsigned (R490 to R504, R530). For a store the sign says nothing. -/
def wordMemCtrl : Instr → Option MemCtrl
  | .lb _ _ _ | .sb _ _ _ => some ⟨1, true⟩
  | .lh _ _ _ | .sh _ _ _ => some ⟨2, true⟩
  | .lw _ _ _ | .sw _ _ _ | .flw _ _ _ | .fsw _ _ _ => some ⟨4, true⟩
  | .ld _ _ _ | .sd _ _ _ | .fld _ _ _ | .fsd _ _ _ => some ⟨8, true⟩
  | .lbu _ _ _ => some ⟨1, false⟩
  | .lhu _ _ _ => some ⟨2, false⟩
  | .lwu _ _ _ => some ⟨4, false⟩
  | .lrW _ _ _ _ | .scW _ _ _ _ _ | .amoswapW _ _ _ _ _ | .amoaddW _ _ _ _ _ | .amoxorW _ _ _ _ _
  | .amoandW _ _ _ _ _ | .amoorW _ _ _ _ _ | .amominW _ _ _ _ _ | .amomaxW _ _ _ _ _ | .amominuW _ _ _ _ _
  | .amomaxuW _ _ _ _ _ => some ⟨4, true⟩
  | .lrD _ _ _ _ | .scD _ _ _ _ _ | .amoswapD _ _ _ _ _ | .amoaddD _ _ _ _ _ | .amoxorD _ _ _ _ _
  | .amoandD _ _ _ _ _ | .amoorD _ _ _ _ _ | .amominD _ _ _ _ _ | .amomaxD _ _ _ _ _ | .amominuD _ _ _ _ _
  | .amomaxuD _ _ _ _ _ => some ⟨8, true⟩
  | _ => none

/-- The control signals of an instruction; a compressed one has those of its expansion, with is-compressed set (R336, R740). -/
def ctrl (i : Instr) : Ctrl :=
  let j := (expansion i).getD i
  ⟨wordWbSource j, wordMemCtrl j, wordBranchType j, (expansion i).isSome⟩

/-- The size in bytes of an instruction (R44). -/
def instrSize (i : Instr) : Nat := (encode i).size

/-! ## What an instruction writes and reaches -/

/-- The integer register a 32-bit instruction writes when it retires. -/
def wordDestX : Instr → Option Reg
  | .lui rd _ | .auipc rd _ | .addi rd _ _ | .slti rd _ _ | .sltiu rd _ _ | .xori rd _ _ | .ori rd _ _
  | .andi rd _ _ | .slli rd _ _ | .srli rd _ _ | .srai rd _ _ | .add rd _ _ | .sub rd _ _ | .sll rd _ _
  | .slt rd _ _ | .sltu rd _ _ | .xor rd _ _ | .srl rd _ _ | .sra rd _ _ | .or rd _ _ | .and rd _ _
  | .addiw rd _ _ | .slliw rd _ _ | .srliw rd _ _ | .sraiw rd _ _ | .addw rd _ _ | .subw rd _ _ | .sllw rd _ _
  | .srlw rd _ _ | .sraw rd _ _ | .jal rd _ | .jalr rd _ _ | .lb rd _ _ | .lh rd _ _ | .lw rd _ _ | .ld rd _ _
  | .lbu rd _ _ | .lhu rd _ _ | .lwu rd _ _ | .mul rd _ _ | .mulh rd _ _ | .mulhsu rd _ _ | .mulhu rd _ _
  | .div rd _ _ | .divu rd _ _ | .rem rd _ _ | .remu rd _ _ | .mulw rd _ _ | .divw rd _ _ | .divuw rd _ _
  | .remw rd _ _ | .remuw rd _ _ | .lrW _ _ rd _ | .scW _ _ rd _ _ | .lrD _ _ rd _ | .scD _ _ rd _ _
  | .amoswapW _ _ rd _ _ | .amoaddW _ _ rd _ _ | .amoxorW _ _ rd _ _ | .amoandW _ _ rd _ _ | .amoorW _ _ rd _ _
  | .amominW _ _ rd _ _ | .amomaxW _ _ rd _ _ | .amominuW _ _ rd _ _ | .amomaxuW _ _ rd _ _
  | .amoswapD _ _ rd _ _ | .amoaddD _ _ rd _ _ | .amoxorD _ _ rd _ _ | .amoandD _ _ rd _ _ | .amoorD _ _ rd _ _
  | .amominD _ _ rd _ _ | .amomaxD _ _ rd _ _ | .amominuD _ _ rd _ _ | .amomaxuD _ _ rd _ _ | .fcvtWS _ rd _
  | .fcvtWuS _ rd _ | .fmvXW rd _ | .feqS rd _ _ | .fltS rd _ _ | .fleS rd _ _ | .fclassS rd _ | .fcvtLS _ rd _
  | .fcvtLuS _ rd _ | .feqD rd _ _ | .fltD rd _ _ | .fleD rd _ _ | .fclassD rd _ | .fcvtWD _ rd _
  | .fcvtWuD _ rd _ | .fcvtLD _ rd _ | .fcvtLuD _ rd _ | .fmvXD rd _ | .csrrw rd _ _ | .csrrs rd _ _
  | .csrrc rd _ _ | .csrrwi rd _ _ | .csrrsi rd _ _ | .csrrci rd _ _ => some rd
  | _ => none

/-- The FP register a 32-bit instruction writes when it retires. -/
def wordDestF : Instr → Option Reg
  | .flw rd _ _ | .fmaddS _ rd _ _ _ | .fmsubS _ rd _ _ _ | .fnmsubS _ rd _ _ _ | .fnmaddS _ rd _ _ _
  | .faddS _ rd _ _ | .fsubS _ rd _ _ | .fmulS _ rd _ _ | .fdivS _ rd _ _ | .fsqrtS _ rd _ | .fsgnjS rd _ _
  | .fsgnjnS rd _ _ | .fsgnjxS rd _ _ | .fminS rd _ _ | .fmaxS rd _ _ | .fmvWX rd _ | .fcvtSW _ rd _
  | .fcvtSWu _ rd _ | .fcvtSL _ rd _ | .fcvtSLu _ rd _ | .fld rd _ _ | .fmaddD _ rd _ _ _ | .fmsubD _ rd _ _ _
  | .fnmsubD _ rd _ _ _ | .fnmaddD _ rd _ _ _ | .faddD _ rd _ _ | .fsubD _ rd _ _ | .fmulD _ rd _ _
  | .fdivD _ rd _ _ | .fsqrtD _ rd _ | .fsgnjD rd _ _ | .fsgnjnD rd _ _ | .fsgnjxD rd _ _ | .fminD rd _ _
  | .fmaxD rd _ _ | .fcvtSD _ rd _ | .fcvtDS _ rd _ | .fcvtDW _ rd _ | .fcvtDWu _ rd _ | .fcvtDL _ rd _
  | .fcvtDLu _ rd _ | .fmvDX rd _ => some rd
  | _ => none

/-- The integer register an instruction writes (a write to x0 is discarded, R41). -/
def destX (i : Instr) : Option Reg := wordDestX ((expansion i).getD i)

/-- The FP register an instruction writes. -/
def destF (i : Instr) : Option Reg := wordDestF ((expansion i).getD i)

/-- The registers a 32-bit instruction reads, in the order rv1, rv2, rv3 (R924, R930). -/
def wordSources : Instr → List RegName
  | .addi _ rs1 _ | .slti _ rs1 _ | .sltiu _ rs1 _ | .xori _ rs1 _ | .ori _ rs1 _ | .andi _ rs1 _ | .slli _ rs1 _
  | .srli _ rs1 _ | .srai _ rs1 _ | .addiw _ rs1 _ | .slliw _ rs1 _ | .srliw _ rs1 _ | .sraiw _ rs1 _ | .jalr _ rs1 _
  | .lb _ rs1 _ | .lh _ rs1 _ | .lw _ rs1 _ | .ld _ rs1 _ | .lbu _ rs1 _ | .lhu _ rs1 _ | .lwu _ rs1 _
  | .lrW _ _ _ rs1 | .lrD _ _ _ rs1 | .flw _ rs1 _ | .fmvWX _ rs1 | .fcvtSW _ _ rs1 | .fcvtSWu _ _ rs1
  | .fcvtSL _ _ rs1 | .fcvtSLu _ _ rs1 | .fld _ rs1 _ | .fcvtDW _ _ rs1 | .fcvtDWu _ _ rs1 | .fcvtDL _ _ rs1
  | .fcvtDLu _ _ rs1 | .fmvDX _ rs1 | .csrrw _ _ rs1 | .csrrs _ _ rs1 | .csrrc _ _ rs1 => [.x rs1]
  | .add _ rs1 rs2 | .sub _ rs1 rs2 | .sll _ rs1 rs2 | .slt _ rs1 rs2 | .sltu _ rs1 rs2 | .xor _ rs1 rs2
  | .srl _ rs1 rs2 | .sra _ rs1 rs2 | .or _ rs1 rs2 | .and _ rs1 rs2 | .addw _ rs1 rs2 | .subw _ rs1 rs2
  | .sllw _ rs1 rs2 | .srlw _ rs1 rs2 | .sraw _ rs1 rs2 | .beq rs1 rs2 _ | .bne rs1 rs2 _ | .blt rs1 rs2 _
  | .bge rs1 rs2 _ | .bltu rs1 rs2 _ | .bgeu rs1 rs2 _ | .sb rs1 rs2 _ | .sh rs1 rs2 _ | .sw rs1 rs2 _
  | .sd rs1 rs2 _ | .mul _ rs1 rs2 | .mulh _ rs1 rs2 | .mulhsu _ rs1 rs2 | .mulhu _ rs1 rs2 | .div _ rs1 rs2
  | .divu _ rs1 rs2 | .rem _ rs1 rs2 | .remu _ rs1 rs2 | .mulw _ rs1 rs2 | .divw _ rs1 rs2 | .divuw _ rs1 rs2
  | .remw _ rs1 rs2 | .remuw _ rs1 rs2 | .scW _ _ _ rs1 rs2 | .scD _ _ _ rs1 rs2 | .amoswapW _ _ _ rs1 rs2
  | .amoaddW _ _ _ rs1 rs2 | .amoxorW _ _ _ rs1 rs2 | .amoandW _ _ _ rs1 rs2 | .amoorW _ _ _ rs1 rs2
  | .amominW _ _ _ rs1 rs2 | .amomaxW _ _ _ rs1 rs2 | .amominuW _ _ _ rs1 rs2 | .amomaxuW _ _ _ rs1 rs2
  | .amoswapD _ _ _ rs1 rs2 | .amoaddD _ _ _ rs1 rs2 | .amoxorD _ _ _ rs1 rs2 | .amoandD _ _ _ rs1 rs2
  | .amoorD _ _ _ rs1 rs2 | .amominD _ _ _ rs1 rs2 | .amomaxD _ _ _ rs1 rs2 | .amominuD _ _ _ rs1 rs2
  | .amomaxuD _ _ _ rs1 rs2 | .sfenceVma rs1 rs2 => [.x rs1, .x rs2]
  | .fsw rs1 rs2 _ | .fsd rs1 rs2 _ => [.x rs1, .f rs2]
  | .fmaddS _ _ rs1 rs2 rs3 | .fmsubS _ _ rs1 rs2 rs3 | .fnmsubS _ _ rs1 rs2 rs3 | .fnmaddS _ _ rs1 rs2 rs3
  | .fmaddD _ _ rs1 rs2 rs3 | .fmsubD _ _ rs1 rs2 rs3 | .fnmsubD _ _ rs1 rs2 rs3
  | .fnmaddD _ _ rs1 rs2 rs3 => [.f rs1, .f rs2, .f rs3]
  | .faddS _ _ rs1 rs2 | .fsubS _ _ rs1 rs2 | .fmulS _ _ rs1 rs2 | .fdivS _ _ rs1 rs2 | .fsgnjS _ rs1 rs2
  | .fsgnjnS _ rs1 rs2 | .fsgnjxS _ rs1 rs2 | .fminS _ rs1 rs2 | .fmaxS _ rs1 rs2 | .feqS _ rs1 rs2 | .fltS _ rs1 rs2
  | .fleS _ rs1 rs2 | .faddD _ _ rs1 rs2 | .fsubD _ _ rs1 rs2 | .fmulD _ _ rs1 rs2 | .fdivD _ _ rs1 rs2
  | .fsgnjD _ rs1 rs2 | .fsgnjnD _ rs1 rs2 | .fsgnjxD _ rs1 rs2 | .fminD _ rs1 rs2 | .fmaxD _ rs1 rs2
  | .feqD _ rs1 rs2 | .fltD _ rs1 rs2 | .fleD _ rs1 rs2 => [.f rs1, .f rs2]
  | .fsqrtS _ _ rs1 | .fcvtWS _ _ rs1 | .fcvtWuS _ _ rs1 | .fmvXW _ rs1 | .fclassS _ rs1 | .fcvtLS _ _ rs1
  | .fcvtLuS _ _ rs1 | .fsqrtD _ _ rs1 | .fcvtSD _ _ rs1 | .fcvtDS _ _ rs1 | .fclassD _ rs1 | .fcvtWD _ _ rs1
  | .fcvtWuD _ _ rs1 | .fcvtLD _ _ rs1 | .fcvtLuD _ _ rs1 | .fmvXD _ rs1 => [.f rs1]
  | _ => []

/-- The registers an instruction reads; those of its expansion for a compressed one. -/
def sources (i : Instr) : List RegName := wordSources ((expansion i).getD i)

/-- The register an instruction writes when it retires; none for x0 (R41). -/
def destReg (i : Instr) : Option RegName :=
  match destX i with
  | some r => if r = 0#5 then none else some (.x r)
  | none => (destF i).map .f

/-- A CSR instruction (R943). -/
def isCsr : Instr → Bool
  | .csrrw _ _ _ | .csrrs _ _ _ | .csrrc _ _ _ | .csrrwi _ _ _ | .csrrsi _ _ _ | .csrrci _ _ _ => true
  | _ => false

/-- FENCE.I. -/
def isFenceI : Instr → Bool
  | .fenceI _ _ _ => true
  | _ => false

/-- An instruction that has its effect at writeback, where it redirects fetch: SYSTEM and FENCE.I (R943). -/
def actsAtWriteback (i : Instr) : Bool := instrClass i == .system || isFenceI i

/-- An instruction whose result comes from the memory stage, the load of the load-use hazard: LOAD, FP_LOAD, LR, SC, AMO
(R931). The writeback source is another grouping: SC is not among the loads there (R336). -/
def loadsResult (i : Instr) : Bool :=
  match instrClass i with
  | .load | .fpLoad | .lr | .sc | .amo => true
  | _ => false

/-- An instruction that accesses memory in the memory stage (R923). -/
def usesMemory (i : Instr) : Bool :=
  match instrClass i with
  | .load | .fpLoad | .lr | .sc | .amo | .store | .fpStore => true
  | _ => false

/-- The cycles an instruction spends in EX when nothing stalls it (R980, D56). -/
def unitLatency (t : TimingConfig) (i : Instr) : Nat :=
  match instrClass i with
  | .fpArith | .fpFma | .fpDivSqrt => t.fpLatency
  | .alu =>
    match i with
    | .mul _ _ _ | .mulh _ _ _ | .mulhsu _ _ _ | .mulhu _ _ _ | .mulw _ _ _ => t.mulLatency
    | .div _ _ _ | .divu _ _ _ | .rem _ _ _ | .remu _ _ _ | .divw _ _ _ | .divuw _ _ _ | .remw _ _ _
    | .remuw _ _ _ => t.divLatency
    | _ => 1
  | _ => 1

/-- Whether a conditional branch with these operands is taken (R475 to R480). -/
def condTaken (i : Instr) (a b : Word) : Bool :=
  match (expansion i).getD i with
  | .beq _ _ _ => a == b
  | .bne _ _ _ => a != b
  | .blt _ _ _ => a.slt b
  | .bge _ _ _ => !a.slt b
  | .bltu _ _ _ => a.ult b
  | .bgeu _ _ _ => !a.ult b
  | _ => false

/-- The data access of a 32-bit instruction: how it is translated, its address and its width (R180, R490, R534 to R538). -/
def wordDataAccess (s : State) : Instr → Option (Access × Word × Nat)
  | .lb _ rs1 imm | .lbu _ rs1 imm => some (.load, s.effAddr rs1 imm, 1)
  | .lh _ rs1 imm | .lhu _ rs1 imm => some (.load, s.effAddr rs1 imm, 2)
  | .lw _ rs1 imm | .lwu _ rs1 imm | .flw _ rs1 imm => some (.load, s.effAddr rs1 imm, 4)
  | .ld _ rs1 imm | .fld _ rs1 imm => some (.load, s.effAddr rs1 imm, 8)
  | .sb rs1 _ imm => some (.store, s.effAddr rs1 imm, 1)
  | .sh rs1 _ imm => some (.store, s.effAddr rs1 imm, 2)
  | .sw rs1 _ imm | .fsw rs1 _ imm => some (.store, s.effAddr rs1 imm, 4)
  | .sd rs1 _ imm | .fsd rs1 _ imm => some (.store, s.effAddr rs1 imm, 8)
  | .lrW _ _ _ rs1 => some (.load, s.readX rs1, 4)
  | .lrD _ _ _ rs1 => some (.load, s.readX rs1, 8)
  | .scW _ _ _ rs1 _ | .amoswapW _ _ _ rs1 _ | .amoaddW _ _ _ rs1 _ | .amoxorW _ _ _ rs1 _
  | .amoandW _ _ _ rs1 _ | .amoorW _ _ _ rs1 _ | .amominW _ _ _ rs1 _ | .amomaxW _ _ _ rs1 _
  | .amominuW _ _ _ rs1 _ | .amomaxuW _ _ _ rs1 _ => some (.store, s.readX rs1, 4)
  | .scD _ _ _ rs1 _ | .amoswapD _ _ _ rs1 _ | .amoaddD _ _ _ rs1 _ | .amoxorD _ _ _ rs1 _
  | .amoandD _ _ _ rs1 _ | .amoorD _ _ _ rs1 _ | .amominD _ _ _ rs1 _ | .amomaxD _ _ _ rs1 _
  | .amominuD _ _ _ rs1 _ | .amomaxuD _ _ _ rs1 _ => some (.store, s.readX rs1, 8)
  | _ => none

/-- The data access of an instruction. -/
def dataAccess (i : Instr) (s : State) : Option (Access × Word × Nat) := wordDataAccess s ((expansion i).getD i)

/-- A floating-point instruction in the sense of R712: it is illegal while FS is Off. -/
def isFp (i : Instr) : Bool :=
  match instrClass i with
  | .fpLoad | .fpStore | .fpArith | .fpFma | .fpDivSqrt => true
  | _ => false

/-- The rounding-mode field of an instruction that has one (R563). -/
def rmOf : Instr → Option (BitVec 3)
  | .fmaddS rm _ _ _ _ | .fmsubS rm _ _ _ _ | .fnmsubS rm _ _ _ _ | .fnmaddS rm _ _ _ _ | .faddS rm _ _ _
  | .fsubS rm _ _ _ | .fmulS rm _ _ _ | .fdivS rm _ _ _ | .fsqrtS rm _ _ | .fcvtWS rm _ _ | .fcvtWuS rm _ _
  | .fcvtSW rm _ _ | .fcvtSWu rm _ _ | .fcvtLS rm _ _ | .fcvtLuS rm _ _ | .fcvtSL rm _ _ | .fcvtSLu rm _ _
  | .fmaddD rm _ _ _ _ | .fmsubD rm _ _ _ _ | .fnmsubD rm _ _ _ _ | .fnmaddD rm _ _ _ _ | .faddD rm _ _ _
  | .fsubD rm _ _ _ | .fmulD rm _ _ _ | .fdivD rm _ _ _ | .fsqrtD rm _ _ | .fcvtSD rm _ _ | .fcvtDS rm _ _
  | .fcvtWD rm _ _ | .fcvtWuD rm _ _ | .fcvtDW rm _ _ | .fcvtDWu rm _ _ | .fcvtLD rm _ _ | .fcvtLuD rm _ _
  | .fcvtDL rm _ _ | .fcvtDLu rm _ _ => some rm
  | _ => none

/-- The misaligned-address exception of an access (R181). -/
def Access.misaligned : Access → Exc
  | .store => .storeAddressMisaligned
  | _ => .loadAddressMisaligned

end Sys2Proof.Machine
end

