-- ==== Sys2Proof/Machine/Traffic.lean ====
section
/-! DEFINITION. Which memory accesses an instruction makes, in order, and what they cost (spec/20_memory.md R245, R283; spec/
70_reset_and_hazards.md R981, R983, D77). -/
namespace Sys2Proof.Machine

/-- How the prefetches of an access are translated: by the TLB of its own kind, as its own walk and fill left it, under the
permissions its own kind needs (R245; the kind is the model's choice, log 37). -/
structure Translator where
  acc : Access
  tlb : List TlbEntry
  deriving DecidableEq, Repr

/-- One access on its way to memory: the level it looks up first, how its prefetches are translated, the address the
prefetchers see, the physical address and the width. A PTE access is physical, and so are its prefetches. -/
structure Traffic where
  first : Level
  kind  : Option Translator
  addr  : Word
  pa    : Nat
  bytes : Nat
  write : Bool
  deriving DecidableEq, Repr

namespace State

/-! ## Page-table accesses (R236, R238, R283) -/

/-- A PTE access: 8 bytes through L1D, for fetches too (D77). -/
def pteAccess (pa : Word) (write : Bool) : Traffic := ⟨.l1d, none, pa, pa.toNat, 8, write⟩

/-- The PTEs a walk reads from the table at a, with i levels below it. A read the bus refuses, at which the walk ends, is an access
too (D63, R983). -/
def walkReads (s : State) (va a : Word) (i : Nat) : List Traffic :=
  let pteAddr := a + ((vpnPart va i).setWidth 64 <<< 3)
  match s.readPte 0 pteAddr with
  | none => [pteAccess pteAddr false]
  | some (pte, t) =>
    pteAccess pteAddr false ::
      (if Pte.malformed pte || !Pte.pointer pte then []
       else
        match i with
        | 0 => []
        | j + 1 => t.walkReads va ((Pte.ppn pte).setWidth 64 <<< 12) j)

/-- The accesses of a walk: the reads, and the A and D update if there is one. -/
def walkTraffic (s : State) (acc : Access) (va : Word) : List Traffic :=
  let root := (satpPpn s.csr.satp).setWidth 64 <<< 12
  s.walkReads va root 2 ++
    (match s.walkFrom 0 acc (s.effPriv acc) va root 2 with
     | (.leaf pteAddr pte _, _) => if markedPte acc pte = pte then [] else [pteAccess pteAddr true]
     | (.pageFault, _) => []
     | (.accessFault, _) => [])

/-- The page-table accesses of a translation: a walk on a TLB miss, or on a store that hits an entry with D = 0 (R230, R242).
It is the walk translate makes, in the state it makes it in, so that a PTE in a device has the value it has there. -/
def translationTraffic (s : State) (acc : Access) (va : Word) : List Traffic :=
  let p := s.effPriv acc
  if satpMode s.csr.satp = 0#4 || p == .M || !canonical va then []
  else
    let t := (s.setTlb acc (s.entries acc va)).useDraw
    match (s.entries acc va).find? fun e => e.hits va (satpAsid s.csr.satp) with
    | none => t.walkTraffic acc va
    | some e => if s.permitted acc p e.r e.w e.x e.u && acc == .store && !e.d then t.walkTraffic acc va else []

/-! ## Data accesses -/

/-- The accesses of a memory instruction at its address va (R200, R201, R204, R531): its translation, then one access, which
writes for a store and for an AMO; an SC that fails makes none. An AMO of a device, which is a read and a write on the bus
(D62), is one access here and costs one transit time, where the spec does not say (R983; the model's choice, log 36). -/
def dataTraffic (s : State) (i : Instr) (va : Word) : List Traffic :=
  match dataAccess i s with
  | none => []
  | some (acc, _, n) =>
    s.translationTraffic acc va ++
      (match s.translate acc va with
       | .raise _ _ => []
       | .ok pa t =>
         if instrClass i = .sc ∧ t.resv ≠ some (t.granule pa) then []
         else [⟨.l1d, some ⟨acc, t.tlb acc⟩, va, pa.toNat, n, acc == .store⟩])

/-! ## Fetches -/

/-- The accesses of one parcel's fetch: its translation, then the parcel. -/
def parcelTraffic (s : State) (va : Word) : List Traffic :=
  s.translationTraffic .fetch va ++
    (match s.translate .fetch va with
     | .raise _ _ => []
     | .ok pa t => [⟨.l1i, some ⟨.fetch, t.itlb⟩, va, pa.toNat, 2, false⟩])

/-- The accesses of a fetch (R203). A second parcel in the line of the first, both in RAM, comes with it. The spec gives no count
of a fetch's lookups (R203, R283); that the line is one of L1I's line_bytes also while L1I is disabled (every pair of RAM parcels,
if line_bytes is 0, as dividing by 0 gives 0 on both sides) is the model's choice too (log 36). -/
def fetchTraffic (s : State) (pc : Word) : List Traffic :=
  let first := s.parcelTraffic pc
  match s.fetch16 pc with
  | (.error _, _) => first
  | (.ok lo, t) =>
    if lo.extractLsb' 0 2 = 0b11#2 then
      let second := t.parcelTraffic (pc + 2#64)
      match first.getLast?, second.getLast? with
      | some a, some b =>
        if b.first = .l1i ∧ inRam s.cfg a.pa 2 = true ∧ inRam s.cfg b.pa 2 = true ∧
            a.pa / s.cfg.l1i.lineBytes = b.pa / s.cfg.l1i.lineBytes
        then first ++ second.dropLast else first ++ second
      | _, _ => first ++ second
    else first

/-- An access that leaves no trace but in caches and TLBs: a read that reaches no device. -/
def quiet (s : State) (t : Traffic) : Bool :=
  !t.write &&
    (match ownerOf s.cfg t.pa with
     | some (.device _ _) => false
     | some .ram => true
     | none => true)

/-! ## Their cost -/

/-- Where a prefetch of an address goes (R245, R290): a RAM address, had by a TLB lookup alone that leaves the TLB as it was;
none if it misses, is not permitted or is not RAM. An entry with D = 0 is a hit for a store's prefetch too, which sets no D: that
R242 makes it a miss for the store itself is not taken over to prefetches (the model's choice, log 37). -/
def prefetchTarget (s : State) (w : Translator) (va : Word) : Option Nat :=
  let p := s.effPriv w.acc
  let ram (pa : Word) : Option Nat := if inRam s.cfg pa.toNat 1 then some pa.toNat else none
  if satpMode s.csr.satp = 0#4 || p == .M then ram va
  else
    match w.tlb.find? fun e => e.hits va (satpAsid s.csr.satp) with
    | none => none
    | some e => if s.permitted w.acc p e.r e.w e.x e.u then ram (pageAddress e.size e.ppn va) else none

/-- The cost of one access and what it does to the caches: RAM through the levels, a device the bus transit time, an address
nobody owns nothing (R280, R981, R983). An access that begins in RAM and ends past its end, which is an access fault, is charged
the transit time of its bytes: R983 gives it no cost (the model's choice, log 36). A prefetch is looked up in the TLB and checked for the kind of the access that triggered
it: W for a store's, X through the instruction TLB for a fetch's; that of a PTE access stays physical (R245; the TLB and the kind
are the model's choice, log 37). -/
def charge (s : State) (pc : Word) (t : Traffic) (u : Uarch) : Nat × Uarch :=
  if inRam s.cfg t.pa t.bytes then
    let tr : Word → Option Nat := match t.kind with
      | some w => s.prefetchTarget w
      | none => fun a => if inRam s.cfg a.toNat 1 then some a.toNat else none
    u.access s.cfg tr (cachePath s.cfg t.first) t.bytes ⟨some ⟨pc, t.addr⟩, t.pa, t.write⟩
  else (if (ownerOf s.cfg t.pa).isSome then transitTime s.cfg.timing t.bytes else 0, u)

/-- The latency of accesses one after another (R981). -/
def chargeAll (s : State) (pc : Word) : List Traffic → Uarch → Nat × Uarch
  | [], u => (0, u)
  | t :: ts, u =>
    let a := s.charge pc t u
    let b := s.chargeAll pc ts a.2
    (a.1 + b.1, b.2)

end State
end Sys2Proof.Machine
end

