-- ==== Sys2Proof/Machine/Pipeline.lean ====
section
/-! DEFINITION. The five-stage pipeline, one cycle at a time (spec/70_reset_and_hazards.md R920 to R985; spec/60_exceptions.md
R812, R813): the second level of description of R10. What an instruction does is its meaning, exec; the stages decide when its
parts happen. The instruction-level step is in Machine/Step.lean; R960 relates the two. -/
namespace Sys2Proof.Machine

/-- Every exception. -/
def allExc : List Exc :=
  [.instructionAccessFault, .illegalInstruction, .breakpoint, .loadAddressMisaligned, .loadAccessFault,
    .storeAddressMisaligned, .storeAccessFault, .ecallFromU, .ecallFromS, .ecallFromM, .instructionPageFault, .loadPageFault,
    .storePageFault]

/-- The exception of a cause value. -/
def excOfCause (v : Word) : Exc := (allExc.find? fun e => e.code == v.toNat).getD .illegalInstruction

namespace State

/-! ## Registers by name, and running a meaning inside a stage -/

def readReg (s : State) : RegName → Word
  | .x r => s.readX r
  | .f r => s.readF r

/-- Put a value in a register, with no effect on FS: an operand on its way into a functional unit. -/
def withReg (s : State) (n : RegName) (v : Word) : State :=
  match n with
  | .x r => s.writeX r v
  | .f r => { s with f := s.f.set r.toNat v }

/-- The registers an instruction reads replaced by its operands rv1, rv2, rv3. -/
def withOperands (s : State) (i : Instr) (rv : List Word) : State :=
  ((sources i).zip rv).foldl (fun t p => t.withReg p.1 p.2) s

/-- The state an instruction's meaning runs in inside EX or MEM: at its own pc, with its operands and no FP flag set yet. -/
def unitInput (s : State) (pc : Word) (i : Instr) (rv : List Word) : State :=
  let t := s.withOperands i rv
  { t with pc := pc, csr := { t.csr with fflags := FFlags.none } }

/-- The trap a meaning took, read back from the registers it saved it in. -/
def trapTaken (t : State) : TrapMark :=
  match t.priv with
  | .M => ⟨excOfCause t.csr.mcause, t.csr.mtval⟩
  | _ => ⟨excOfCause t.csr.scause, t.csr.stval⟩

/-- A functional unit: the meaning's next state if it retires, or the trap it takes. A retirement is a boundary, a trap
entry is none. -/
def runUnit (s : State) (pc : Word) (i : Instr) (rv : List Word) : Except TrapMark State :=
  match exec i (s.unitInput pc i rv) with
  | .next t => if t.atBoundary then .ok t else .error t.trapTaken
  | .fault _ => .error ⟨.illegalInstruction, rawBits i⟩
  | .refused _ => .error ⟨.illegalInstruction, rawBits i⟩

/-- What the memory stage keeps of a meaning's next state: memory, devices, TLBs, reservation, the next free value. -/
def withMemoryOf (s t : State) : State :=
  { s with
    mem := t.mem
    itlb := t.itlb
    dtlb := t.dtlb
    clint := t.clint
    plic := t.plic
    devLog := t.devLog
    resv := t.resv
    draws := t.draws }

/-- The logs of earlier contents are not used at this level: what is stale is in the latches and the TLBs themselves. -/
def forgetLogs (s : State) : State := { s with fetchLog := [], walkLog := [] }

/-! ## The beginning of a cycle (R921 steps 1 and 2) -/

/-- The lines consumed are those the previous tick produced; mcycle counts; the devices tick, DMA lands, and the lines for the
next cycle are produced (R110, R812, R850, R852). -/
def beginCycle (s : State) : State :=
  let u := s.uarch
  let t : State := { s with
    exact := true
    lines := ⟨u.tickMtip, u.tickMsip, u.tickSeip⟩
    csr := { s.csr with mcycle := s.csr.mcycle + 1#64 }
    clint := { s.clint with mtime := s.clint.mtime + 1#64 } }
  let t := t.environment.forgetLogs
  let l := t.drivenLines
  { t with uarch := { t.uarch with tickMtip := l.mtip, tickMsip := l.msip, tickSeip := l.seip } }

/-- The end of a cycle: the TLBs are exact only inside one. -/
def endCycle (s : State) : State := { s.forgetLogs with exact := false }

/-! ## Squashing (R950, R951) -/

/-- Every latch a bubble and fetch at a new pc in the next cycle: the redirect of a writeback (R943). -/
def flushAll (s : State) (target : Word) : State :=
  { s with uarch := { s.uarch with
      fetchPc := target
      fetchHeld := false
      ifId := none
      idEx := none
      exMem := none
      memWb := none
      ifBusy := none
      exBusy := none
      memBusy := none } }

/-- IF/ID and ID/EX bubbles and fetch at the actual next pc in the next cycle: a misprediction (R950). It stays stopped if the
instruction that redirects it is one fetch stops behind (R943). -/
def flushFront (s : State) (target : Word) (held : Bool) : State :=
  { s with uarch := { s.uarch with fetchPc := target, fetchHeld := held, ifId := none, idEx := none, ifBusy := none } }

/-! ## Writeback (R922, R813) -/

/-- Retire an entry: the value to its register, the flags, minstret, and the end of the run if its store ended it. -/
def retireEntry (s : State) (e : MemWb) : State :=
  let t := match e.dest with
    | some (.x r) => s.writeX r e.wbValue
    | some (.f r) => s.writeF r e.wbValue
    | none => s
  { (t.accrue e.flags).retireTo e.next with ended := e.ends }

/-- The address of the next instruction in program order (R813 step 3): the oldest valid latch, else the fetch under way, else
the pc fetch will use next. -/
def nextInOrder (u : Uarch) : Word :=
  ((u.exMem.map ExMem.pc) <|> (u.idEx.map IdEx.pc) <|> (u.ifId.map IfId.pc) <|> (u.ifBusy.map fun b => b.out.pc)).getD u.fetchPc

/-- Consider an interrupt at a boundary (R813 step 3): the state with it taken, or none. -/
def interruptAt (s : State) (epc : Word) : Option State :=
  s.pendingIrq.map fun i =>
    let t := State.takeInterrupt { s with pc := epc } i
    t.flushAll t.pc

/-- The CSR a CSR instruction names. -/
def csrNamed : Instr → Option CsrName
  | .csrrw _ a _ | .csrrs _ a _ | .csrrc _ a _ | .csrrwi _ a _ | .csrrsi _ a _ | .csrrci _ a _ => csrOf a
  | _ => none

/-- The CSRs an instruction reads at its writeback and not in EX: the counters (R713), and those that show fflags or FS, which
older FP instructions change at their own writebacks (R62, R566, conflict C12; log 34). -/
def readAtWriteback : CsrName → Bool
  | .mcycle | .minstret | .cycle | .time | .instret => true
  | .fflags | .fcsr | .mstatus | .sstatus => true
  | _ => false

/-- A CSR instruction at its writeback: it writes the CSR here, and rd gets the value read in EX (R924, R943). The new value is
the one EX computed: the bits a write keeps change by no other instruction in flight, but for those of readAtWriteback. -/
def retireCsr (s : State) (e : MemWb) (i : Instr) : Result :=
  match exec i { s with pc := e.pc } with
  | .next t =>
    match e.dest with
    | some (.x r) => .next (if t.atBoundary && !(csrNamed i).any readAtWriteback then t.writeX r e.wbValue else t)
    | _ => .next t
  | .fault f => .fault f
  | .refused r => .refused r

/-- An instruction that acts at writeback (R943). -/
def actNow (s : State) (e : MemWb) (i : Instr) : Result :=
  if isCsr i then s.retireCsr e i else exec i { s with pc := e.pc }

/-- What writeback does: the state after it, and whether it has squashed everything younger, so that the other stages do
nothing more in this cycle. -/
def writebackStage (s : State) : State × Bool :=
  match s.uarch.memWb with
  | none =>
    if s.waiting then
      match s.interruptAt s.uarch.fetchPc with
      | some t => (t, true)
      | none => if s.stillWaiting then (s, true) else ({ s with waiting := false }, false)
    else (s, false)
  | some e =>
    match e.trap with
    | some m =>
      let t := s.enterTrap (.exception m.exc) e.pc m.tval
      (t.flushAll t.pc, true)
    | none =>
      match e.decoded with
      | some i =>
        if actsAtWriteback i then
          match s.actNow e i with
          | .next t =>
            let t := t.flushAll t.pc
            if t.atBoundary then ((t.interruptAt t.pc).getD t, true) else (t, true)
          | .fault _ => (s, true)
          | .refused _ => (s, true)
        else
          let t := s.retireEntry e
          if t.ended.isSome then (t.flushAll t.pc, true)
          else
            match t.interruptAt (nextInOrder t.uarch) with
            | some v => (v, true)
            | none => (t, false)
      | none => (s, false)

/-! ## Memory (R923) -/

/-- An entry that has nothing to do in MEM. -/
def passMemory (e : ExMem) : MemWb :=
  ⟨e.pc, e.decoded, e.aluResult, e.decoded.bind destReg, e.flags, e.branchActual, e.trap, none⟩

/-- The access of a memory instruction, performed once (R923): its entry for MEM/WB, its latency (R981), the state after. -/
def accessMemory (s : State) (e : ExMem) (i : Instr) : MemWb × Nat × State :=
  let cost := s.chargeAll e.pc ((s.unitInput e.pc i e.rv).dataTraffic i e.memAddr) s.uarch
  let charged : State := { s with uarch := cost.2 }
  match s.runUnit e.pc i e.rv with
  | .ok t =>
    (⟨e.pc, e.decoded, ((destReg i).map t.readReg).getD 0#64, destReg i, FFlags.none, t.pc, none, t.ended⟩, cost.1,
      (charged.withMemoryOf t).forgetLogs)
  | .error m => (⟨e.pc, e.decoded, 0#64, none, FFlags.none, e.branchActual, some m, none⟩, cost.1, charged)

/-- MEM: the state after it with its output latch, and whether it stalls. -/
def memoryStage (s : State) : State × Bool :=
  let put (t : State) (o : Option MemWb) (b : Option (Busy MemWb)) : State :=
    { t with uarch := { t.uarch with memWb := o, memBusy := b } }
  match s.uarch.memBusy with
  | some b =>
    if b.remaining ≤ 1 then (put s (some b.out) none, false) else (put s none (some { b with remaining := b.remaining - 1 }), true)
  | none =>
    match s.uarch.exMem with
    | none => (put s none none, false)
    | some e =>
      match e.trap, e.decoded with
      | none, some i =>
        if usesMemory i then
          let a := s.accessMemory e i
          if a.2.1 ≤ 1 then (put a.2.2 (some a.1) none, false) else (put a.2.2 none (some ⟨a.2.1 - 1, a.1⟩), true)
        else (put s (some (passMemory e)) none, false)
      | _, _ => (put s (some (passMemory e)) none, false)

/-! ## Execute (R924, R930, R931, R950) -/

/-- Forwarding (R930, D55): from EX/MEM, else from MEM/WB, else the value read at decode. -/
def forward (m : Option ExMem) (w : Option MemWb) (n : RegName) (v : Word) : Word :=
  match m with
  | some e =>
    if e.trap = none ∧ e.decoded.bind destReg = some n then e.aluResult
    else fromWriteback
  | none => fromWriteback
where
  fromWriteback : Word :=
    match w with
    | some e => if e.trap = none ∧ e.dest = some n then e.wbValue else v
    | none => v

/-- The load-use hazard (R931): the instruction in EX/MEM loads a register that the one in ID/EX reads. -/
def loadUse (m : Option ExMem) (e : IdEx) : Bool :=
  match m, e.decoded with
  | some p, some i =>
    match p.trap, p.decoded with
    | none, some load =>
      loadsResult load &&
        (match destReg load with
         | some n => (sources i).contains n
         | none => false)
    | _, _ => false
  | _, _ => false

/-- What EX makes of an entry with its operands: the effective address and the misalignment check of a memory instruction, the
unit's result of another, which for a CSR instruction is the value read (R924); any other instruction that acts at writeback and
a trap mark pass. -/
def executeEntry (s : State) (e : IdEx) (rv : List Word) : ExMem :=
  let base : ExMem :=
    ⟨e.pc, e.decoded, rv, 0#64, FFlags.none, 0#64, 0#64, e.pc + e.size, false, e.trap⟩
  match e.trap, e.decoded with
  | none, some i =>
    if actsAtWriteback i && !isCsr i then base
    else
      match dataAccess i (s.withOperands i rv) with
      | some (acc, va, n) =>
        { base with
          memAddr := va
          storeData := rv.getD 1 0#64
          trap := if isAligned va n then none else some ⟨acc.misaligned, va⟩ }
      | none =>
        match s.runUnit e.pc i rv with
        | .ok t =>
          { base with
            aluResult := ((destReg i).map t.readReg).getD 0#64
            flags := t.csr.fflags
            branchActual := t.pc
            branchTaken :=
              match branchType i with
              | none => false
              | some .cond => condTaken i (rv.getD 0 0#64) (rv.getD 1 0#64)
              | some _ => true }
        | .error m => { base with trap := some m }
  | _, _ => base

/-- The cycles an entry spends in EX; a trap mark does no work (R980, D76). A UNIT_LATENCY of 0 acts as 1 in executeStage (the
model's choice, log 2). -/
def executeLatency (s : State) (e : ExMem) : Nat :=
  match e.trap, e.decoded with
  | none, some i => unitLatency s.cfg.timing i
  | _, _ => 1

/-- A finished entry leaves EX: a control transfer trains the BPU, and a wrong prediction redirects fetch (R924, R950, R970).
The last component is the target of the redirect. -/
def resolve (s : State) (e : IdEx) (out : ExMem) : State × Option Word :=
  match out.trap, out.decoded with
  | none, some i =>
    let u := s.uarch
    let wrong := out.branchActual != e.predNext
    let stats := { u.stats with
      transfers := u.stats.transfers + (branchType i).isSome.toNat
      mispredictions := u.stats.mispredictions + wrong.toNat }
    let trained := match branchType i with
      | some kind => u.bpu.update s.cfg.predictor u.prng e.pc kind out.branchTaken out.branchActual (e.pc + e.size)
      | none => (u.bpu, u.prng)
    ({ s with uarch := { u with stats := stats, bpu := trained.1, prng := trained.2 } },
      if wrong then some out.branchActual else none)
  | _, _ => (s, none)

/-- EX, by the latches as they were at the start of the cycle: the state after it with its output latch, whether it stalls, and
the redirect of a misprediction. A held entry's values are read again, so that a result that has left MEM/WB meanwhile is not
lost (R930). -/
def executeStage (s : State) (was : Uarch) (memStalled : Bool) : State × Bool × Option Word :=
  let held : Option IdEx := was.idEx.map fun e => { e with rv := ((e.decoded.map sources).getD []).map s.readReg }
  let hold (t : State) (out : Option ExMem) (b : Option (Busy ExMem)) : State :=
    { t with uarch := { t.uarch with exMem := out, idEx := held, exBusy := b } }
  let leave (t : State) (e : IdEx) (out : ExMem) : State × Bool × Option Word :=
    let r := t.resolve e out
    ({ r.1 with uarch := { r.1.uarch with exMem := some out, idEx := none, exBusy := none } }, false, r.2)
  if memStalled then
    (hold s was.exMem (was.exBusy.map fun b => { b with remaining := b.remaining - 1 }), was.idEx.isSome, none)
  else
    match was.idEx with
    | none => ({ s with uarch := { s.uarch with exMem := none } }, false, none)
    | some e =>
      match was.exBusy with
      | some b =>
        if b.remaining ≤ 1 then leave s e b.out
        else (hold s none (some { b with remaining := b.remaining - 1 }), true, none)
      | none =>
        if loadUse was.exMem e then
          (hold { s with uarch := { s.uarch with stats := { s.uarch.stats with loadUse := s.uarch.stats.loadUse + 1 } } }
            none none, true, none)
        else
          let names := (e.decoded.map sources).getD []
          let rv := (names.zip e.rv).map fun p => forward was.exMem was.memWb p.1 p.2
          let out := s.executeEntry e rv
          let latency := s.executeLatency out
          if latency ≤ 1 then leave s e out else (hold s none (some ⟨latency - 1, out⟩), true, none)

/-! ## Decode (R925) -/

/-- The traps decode finds: an FP instruction with FS Off or an invalid rounding mode, and a SYSTEM instruction that is illegal
in the current mode (R330(c) to (f)). -/
def decodeTrap (s : State) (i : Instr) : Option TrapMark :=
  let badRm := match rmOf i with
    | some rm => (s.roundingMode rm).isNone
    | none => false
  if isFp i && (!s.fpEnabled || badRm) then some ⟨.illegalInstruction, rawBits i⟩
  else if instrClass i = .system then
    match exec i s with
    | .next t => if !t.atBoundary && t.trapTaken.exc == .illegalInstruction then some t.trapTaken else none
    | .fault _ => none
    | .refused _ => none
  else none

/-- The entry decode makes: the instruction with its register values, or a trap mark. -/
def decodeEntry (s : State) (f : IfId) : IdEx :=
  let predNext := if f.predTaken then f.predTarget else f.pc + f.size
  let mark (m : Option TrapMark) : IdEx := ⟨f.pc, none, f.size, [], predNext, m⟩
  match f.fetchTrap, f.raw with
  | none, some c =>
    match decodeCode c with
    | .error _ => mark (some ⟨.illegalInstruction, c.raw⟩)
    | .ok i =>
      match s.decodeTrap i with
      | some m => mark (some m)
      | none => ⟨f.pc, some i, f.size, (sources i).map s.readReg, predNext, none⟩
  | t, _ => mark t

/-- Fetch stops behind an entry that decodes to a CSR instruction (R943). -/
def serializes (e : IdEx) : Bool := e.decoded.any isCsr

/-- ID, when EX takes its entry. -/
def decodeStage (s : State) : State :=
  match s.uarch.ifId with
  | none => { s with uarch := { s.uarch with idEx := none } }
  | some f =>
    let e := s.decodeEntry f
    { s with uarch := { s.uarch with
        ifId := none
        idEx := some e
        fetchHeld := s.uarch.fetchHeld || serializes e } }

/-! ## Fetch (R926, R978) -/

/-- Nothing is in flight. -/
def drained (u : Uarch) : Bool :=
  u.ifId.isNone && u.idEx.isNone && u.exMem.isNone && u.memWb.isNone && u.ifBusy.isNone && u.exBusy.isNone &&
    u.memBusy.isNone

/-- The entry of a fetch, with the prediction made for its pc (R920, R978). -/
def fetchEntry (pc : Word) (r : Fetched Code) (pred : Option Word) : IfId :=
  match r with
  | .error f => ⟨pc, none, 0#64, false, pc, some ⟨f.1, f.2⟩⟩
  | .ok c => ⟨pc, some c, BitVec.ofNat 64 c.size, pred.isSome, pred.getD (pc + BitVec.ofNat 64 c.size), none⟩

/-- Begin a fetch: its entry, its latency, the state after. The next pc is the predicted one; fetch stops behind a fault. -/
def beginFetch (s : State) (traffic : List Traffic) : IfId × Nat × State :=
  let pc := s.uarch.fetchPc
  let r := State.fetchInstr { s with pc := pc }
  let pred := s.uarch.bpu.predict s.cfg.predictor pc
  let e := fetchEntry pc r.1 pred
  let cost := s.chargeAll pc traffic s.uarch
  let u := { cost.2 with
    bpu := cost.2.bpu.touch s.cfg.predictor pc
    fetchPc := e.predTarget
    fetchHeld := e.fetchTrap.isSome }
  (e, cost.1, (State.withMemoryOf { s with uarch := u } r.2).forgetLogs)

/-- The fetch of the instruction that is in IF for its first cycle; none if fetch has stopped. A fetch that would read a device
or write a PTE waits until nothing older is in flight, so that it is made only for an instruction that is executed (R174, R950,
D51). -/
def newFetch (s : State) : Option (IfId × Nat × State) :=
  if s.uarch.fetchHeld then none
  else
    let traffic := State.fetchTraffic { s with pc := s.uarch.fetchPc } s.uarch.fetchPc
    if traffic.all s.quiet || drained s.uarch then some (s.beginFetch traffic) else none

/-- IF, when ID takes its entry. -/
def fetchStage (s : State) : State :=
  let put (t : State) (o : Option IfId) (b : Option (Busy IfId)) : State :=
    { t with uarch := { t.uarch with ifId := o, ifBusy := b } }
  match s.uarch.ifBusy with
  | some b =>
    if b.remaining ≤ 1 then put s (some b.out) none else put s none (some { b with remaining := b.remaining - 1 })
  | none =>
    match s.newFetch with
    | none => s
    | some f => if f.2.1 ≤ 1 then put f.2.2 (some f.1) none else put f.2.2 none (some ⟨f.2.1 - 1, f.1⟩)

/-- IF while the stages after it hold: an access under way goes on, and that of a new instruction is made in its first cycle
here, after MEM's (R932, D76, D77); its entry waits until ID takes the one before it. Nothing is fetched behind a CSR instruction
that waits in ID (R943). -/
def holdFetch (s : State) : State :=
  match s.uarch.ifBusy with
  | some b => { s with uarch := { s.uarch with ifBusy := some { b with remaining := b.remaining - 1 } } }
  | none =>
    if s.uarch.ifId.any fun f => serializes (s.decodeEntry f) then s
    else
      match s.newFetch with
      | none => s
      | some f => { f.2.2 with uarch := { f.2.2.uarch with ifBusy := some ⟨f.2.1 - 1, f.1⟩ } }

/-! ## The cycle (R921) -/

/-- Count the stall cycles of a cycle (R984); IF stalls while its access is under way. -/
def countStalls (s : State) (memory execute : Bool) : State :=
  let n := s.uarch.stats
  { s with uarch := { s.uarch with stats := { n with
      stallMemory := n.stallMemory + memory.toNat
      stallExecute := n.stallExecute + (execute && !memory).toNat
      stallFetch := n.stallFetch + (s.uarch.ifBusy.any fun b => 0 < b.remaining).toNat } } }

/-- MEM, EX, ID and IF of a cycle in which writeback has squashed nothing. The stages run from back to front, so that the
prediction IF makes sees the update EX has made in the same cycle (R921; for the BPU the model's choice, log 38). -/
def frontStages (s : State) : State :=
  let was := s.uarch
  let m := s.memoryStage
  let x := m.1.executeStage was m.2
  let d := if x.2.1 || m.2 then x.1.holdFetch else x.1.decodeStage.fetchStage
  let d := d.countStalls m.2 x.2.1
  match x.2.2 with
  | some target => d.flushFront target (was.idEx.any serializes)
  | none => d

end State

/-- One cycle of the pipeline (R921): the lines and the devices, then the stages from writeback back to fetch. A run that has
ended is over (R905). -/
def cycle (s : State) : Result :=
  match s.ended with
  | some how => .fault (.runEnded how)
  | none =>
    let w := s.beginCycle.writebackStage
    .next (if w.2 then w.1.endCycle else w.1.frontStages.endCycle)

end Sys2Proof.Machine
end

