-- ==== Sys2Proof/Safety.lean ====
section
/-! DEFINITION. What claims about the machine are stated in: the invariant of its states, the states a run reaches, and the end
of a run. -/
namespace Sys2Proof.Machine

/-- The facts that hold in every state of a run. Each rules out values the spec says are never held. -/
structure State.Inv (s : State) : Prop where
  /-- The memory list is in its canonical form. -/
  memWf : Memory.wf s.mem
  /-- Only addresses of RAM have been written (R171). -/
  memInRam : ∀ c ∈ s.mem, State.inRam s.cfg c.1 1 = true
  /-- pc, mepc and sepc are even (R45, R84, R85). -/
  pcEven : s.pc.getLsbD 0 = false
  mepcEven : s.csr.mepc.getLsbD 0 = false
  sepcEven : s.csr.sepc.getLsbD 0 = false
  /-- mtvec and stvec hold a legal MODE (R80, R81). -/
  mtvecLegal : legalTvec s.csr.mtvec = true
  stvecLegal : legalTvec s.csr.stvec = true
  /-- satp holds a legal MODE (R90). -/
  satpLegal : legalSatp s.csr.satp = true
  /-- Only writable bits of the delegation and enable registers are set (R71 to R73). -/
  medelegMasked : s.csr.medeleg &&& ~~~medelegMask = 0#64
  midelegMasked : s.csr.mideleg &&& ~~~midelegMask = 0#64
  mieMasked : s.csr.mie &&& ~~~mieMask = 0#64
  /-- The TLBs hold at most tlb_size entries (R240). -/
  itlbBounded : s.itlb.length ≤ s.cfg.tlbSize
  dtlbBounded : s.dtlb.length ≤ s.cfg.tlbSize
  /-- A reservation is on an aligned granule (R530). -/
  resvAligned : ∀ g, s.resv = some g → s.granule g = g

/-- What no access to memory changes, translation and device effects included: the registers, pc, mode, CSRs, reservation,
latched lines, what the environment holds, and the microarchitecture. -/
structure State.SameCore (s t : State) : Prop where
  cfg        : t.cfg = s.cfg
  x          : t.x = s.x
  f          : t.f = s.f
  pc         : t.pc = s.pc
  priv       : t.priv = s.priv
  csr        : t.csr = s.csr
  resv       : t.resv = s.resv
  lines      : t.lines = s.lines
  inputs     : t.inputs = s.inputs
  waiting    : t.waiting = s.waiting
  atBoundary : t.atBoundary = s.atBoundary
  exact      : t.exact = s.exact
  uarch      : t.uarch = s.uarch

/-- An outcome with another microarchitecture in its state. -/
def withUarch (u : Uarch) (r : Result) : Result :=
  match r with
  | .next t => .next { t with uarch := u }
  | .fault f => .fault f
  | .refused f => .refused f

/-- i completes in s with the value v in integer register rd: exec answers that state, retired, pc moved past size bytes. -/
def CompletesX (i : Instr) (s : State) (rd : Reg) (v size : Word) : Prop :=
  exec i s = .next ((s.writeX rd v).retireTo (s.pc + size))

/-- i completes in s with the bits v in FP register rd and the flags accumulated. -/
def CompletesF (i : Instr) (s : State) (rd : Reg) (v : Word) (flags : FFlags) : Prop :=
  exec i s = .next (((s.writeF rd v).accrue flags).retireTo (s.pc + 4#64))

/-- i completes in s with the value v in integer register rd and the flags accumulated. -/
def CompletesXF (i : Instr) (s : State) (rd : Reg) (v : Word) (flags : FFlags) : Prop :=
  exec i s = .next (((s.writeX rd v).accrue flags).retireTo (s.pc + 4#64))

/-- The rational number (−1)^sign · m · 2^e. -/
def finValue (sign : Bool) (m : Nat) (e : Int) : ℚ := (if sign then -1 else 1) * (m : ℚ) * (2 : ℚ) ^ e

/-- The integer whose order is the order of the values of non-NaN patterns: sign and magnitude (R560). -/
def FpFmt.orderKey (F : FpFmt) (p : Nat) : Int :=
  if F.signOf p then -((p % F.signWeight : Nat) : Int) else ((p % F.signWeight : Nat) : Int)

/-- t is a next state of s. -/
def Steps (s t : State) : Prop := step s = .next t

/-- t is reached from s by some number of steps. -/
def Reaches (s t : State) : Prop := Relation.ReflTransGen Steps s t

/-- The run has ended (R905): no step follows. -/
def Final (s : State) (how : RunEnd) : Prop := s.ended = some how

end Sys2Proof.Machine
end

