-- ==== Sys2Proof/Certificates/Slice0/Obligations.lean ====
section
/-! DEFINITION. The statements for the provers: each is one obligation, listed in OBLIGATIONS.json. -/

section
open Sys2Proof Sys2Proof.Machine

/-- Decoding the bytes of any well-formed instruction gives it back, with the bytes after it (R302, R305, R327). -/
def Obligations.DecodeReadsBackEveryEncoding : Prop :=
  ∀ (i : Instr) (rest : List Byte), i.wellFormed = true → decode (encodeBytes i ++ rest) = .ok (i, rest)

/-- Bytes that decode to an instruction are its encoding: an instruction has one encoding and is well-formed (R302,
R330). -/
def Obligations.DecodedBytesAreTheEncoding : Prop :=
  ∀ (bs rest : List Byte) (i : Instr), decode bs = .ok (i, rest) → i.wellFormed = true ∧ bs = encodeBytes i ++ rest

/-- Words written out from the encodings of the spec decode to the instructions they stand for (R403, R414, R473,
R475, R496, R504, R514, R539, R587, R702, R714, R774). -/
def Obligations.WordsOfTheSpecDecode : Prop :=
  decode32 (0x80000#20 ++ 5#5 ++ 0b0110111#7) = some (.lui 5#5 0x80000#20) ∧
  decode32 (0b0000000#7 ++ 2#5 ++ 1#5 ++ 0b000#3 ++ 5#5 ++ 0b0110011#7) = some (.add 5#5 1#5 2#5) ∧
  decode32 (0b0#1 ++ 0b0010000000#10 ++ 0b0#1 ++ 0b00000001#8 ++ 1#5 ++ 0b1101111#7) = some (.jal 1#5 0x1100#21) ∧
  decode32 (0b1#1 ++ 0b111111#6 ++ 2#5 ++ 1#5 ++ 0b000#3 ++ 0b1100#4 ++ 0b1#1 ++ 0b1100011#7) =
    some (.beq 1#5 2#5 (BitVec.ofInt 13 (-8))) ∧
  decode32 (0xFF8#12 ++ 1#5 ++ 0b011#3 ++ 5#5 ++ 0b0000011#7) = some (.ld 5#5 1#5 (BitVec.ofInt 12 (-8))) ∧
  decode32 (0b1111111#7 ++ 2#5 ++ 1#5 ++ 0b011#3 ++ 0b11000#5 ++ 0b0100011#7) =
    some (.sd 1#5 2#5 (BitVec.ofInt 12 (-8))) ∧
  decode32 (0b0000001#7 ++ 2#5 ++ 1#5 ++ 0b000#3 ++ 5#5 ++ 0b0110011#7) = some (.mul 5#5 1#5 2#5) ∧
  decode32 (0b00001#5 ++ 1#1 ++ 0#1 ++ 2#5 ++ 1#5 ++ 0b010#3 ++ 5#5 ++ 0b0101111#7) =
    some (.amoswapW 1#1 0#1 5#5 1#5 2#5) ∧
  decode32 (0b0000000#7 ++ 2#5 ++ 1#5 ++ 0b111#3 ++ 5#5 ++ 0b1010011#7) = some (.faddS 7#3 5#5 1#5 2#5) ∧
  decode32 0x30200073#32 = some .mret ∧
  decode32 (0x340#12 ++ 1#5 ++ 0b001#3 ++ 2#5 ++ 0b1110011#7) = some (.csrrw 2#5 0x340#12 1#5) ∧
  decode16 (0b100#3 ++ 0#1 ++ 5#5 ++ 6#5 ++ 0b10#2) = some (.cMv 5#5 6#5)

/-- Reserved and custom encodings are rejected, and executing rejected bits takes the illegal-instruction trap (R330,
R331, R334, R822, R825). -/
def Obligations.IllegalBitsTrap : Prop :=
  decodeCode (.half 0#16) = .error (.reservedParcel 0#16) ∧
  (∃ e, decodeCode (.word 0xFFFFFFFF#32) = .error e) ∧
  (∀ w : BitVec 32, w.extractLsb' 0 7 = 0b0001011#7 ∨ w.extractLsb' 0 7 = 0b0101011#7 ∨ w.extractLsb' 0 7 = 0b1011011#7 ∨
      w.extractLsb' 0 7 = 0b1111011#7 ∨ w.extractLsb' 0 5 = 0b11111#5 →
    ∃ e, decodeCode (.word w) = .error e) ∧
  (∀ (s : State) (c : Code) (e : Reject), decodeCode c = .error e →
    State.execCode s c = .next (s.enterTrap (.exception .illegalInstruction) s.pc c.raw))

/-- A step that fetches bits of an instruction runs exec of that instruction (R203, R302, R812, R813). That cycles may
pass at the end of a step is log 44 (DEDUCED). -/
def Obligations.StepRunsTheDecodedInstruction : Prop :=
  ∀ (s t : State) (c : Code) (i : Instr), s.ended = none → s.stillWaiting = false → s.interruptNow = none →
    State.fetchInstr { s.tick with waiting := false } = (.ok c, t) → decodeCode c = .ok i →
    step s = State.settle (exec i t)

/-- When the bytes of RAM at pc are the encoding of i, a step is exec of i (R161, R202, R203, R301). That cycles may
pass at the end of a step is log 44 (DEDUCED). -/
def Obligations.StepRunsTheBytesAtPc : Prop :=
  ∀ (s : State) (i : Instr), s.ended = none → s.stillWaiting = false → s.interruptNow = none →
    (satpMode s.csr.satp = 0#4 ∨ s.priv = .M) → s.tick.fetchLog = [] → i.wellFormed = true →
    s.cfg.ramBase + s.cfg.ramSize ≤ 2 ^ 64 → State.inRam s.cfg s.pc.toNat (encodeBytes i).length = true →
    (∀ (k : Nat) (h : k < (encodeBytes i).length), s.tick.byteAt (s.pc.toNat + k) = (encodeBytes i)[k]) →
    step s = State.settle (exec i { s.tick with waiting := false })

/-- A step that runs no instruction: ended run, wait, interrupt, fetch fault (R704, R813, R825, R905). That an
interrupt entry is a step of its own, which fetches nothing and lets the clocks advance, is log 30 (DESIGN CHOICE). -/
def Obligations.StepWithoutAnInstruction : Prop :=
  ∀ s : State,
    (∀ how, s.ended = some how → step s = .fault (.runEnded how)) ∧
    (s.ended = none → s.waiting = true → s.mip &&& s.csr.mie = 0#64 → step s = .next s.tick) ∧
    (∀ i, s.ended = none → s.stillWaiting = false → s.interruptNow = some i →
      step s = .next (State.enterTrap { s.tick with waiting := false } (.interrupt i) s.tick.pc 0#64)) ∧
    (∀ e v t, s.ended = none → s.stillWaiting = false → s.interruptNow = none →
      State.fetchInstr { s.tick with waiting := false } = (.error (e, v), t) →
      step s = .next (t.enterTrap (.exception e) t.pc v).endStep)

/-- Every step keeps the invariant: memory canonical and in RAM, pc even, CSR fields legal, TLBs bounded (R41, R45,
R60, R71, R80, R84, R90, R171, R240). -/
def Obligations.EveryStepKeepsTheInvariant : Prop :=
  ∀ s t : State, s.Inv → step s = .next t → t.Inv

/-- The initial state of every accepted configuration, the reset state among them, meets the invariant (R13, R140,
R900). -/
def Obligations.ResetStatesMeetTheInvariant : Prop :=
  (∀ cfg : Config, cfg.valid = true → (State.init cfg).Inv) ∧ State.reset.Inv

/-- What reset leaves: mode, pc, every CSR, reservation, lines, TLBs, the CLINT, and the PLIC as log 14 chooses it
(R45, R46, R53, R60, R70, R130, R140, R900). That the PLIC is 0 is log 14 (DESIGN CHOICE: no rule gives its reset
values), and RESET_REGS is 0 by default by log 3 (DESIGN CHOICE). -/
def Obligations.ResetValuesOfTheCore : Prop :=
  ∀ cfg : Config, let s := State.init cfg
    s.priv = .M ∧ s.pc = cfg.loadBase ∧ s.readX 0#5 = 0#64 ∧
    (∀ r : Reg, r ≠ 0#5 → s.readX r = cfg.resetX[r.toNat]) ∧ (∀ r : Reg, s.readF r = cfg.resetF[r.toNat]) ∧
    s.readCsr .mstatus = 0x0000000A00002000#64 ∧ s.readCsr .sstatus = 0x0000000200002000#64 ∧
    s.readCsr .misa = 0x800000000014112D#64 ∧
    (∀ c, c ≠ .mstatus → c ≠ .sstatus → c ≠ .misa → s.readCsr c = 0#64) ∧
    s.resv = none ∧ s.lines = ⟨false, false, false⟩ ∧ s.itlb = [] ∧ s.dtlb = [] ∧ s.mem = [] ∧
    s.clint = ⟨false, 0#64, 0#64⟩ ∧ s.plic = ⟨Vector.replicate 32 0#32, 0#32, 0#32, 0#32, 0#32⟩ ∧
    s.waiting = false ∧ s.ended = none

/-- Register writes read back, x0 stays 0; retiring moves pc and counts 1; flags accumulate; nothing else changes
(R40, R41, R44, R47, R62, R112, R566, R813). That a retirement is the boundary of R813 is log 7 (DEDUCED). -/
def Obligations.RegisterFilesAndRetirement : Prop :=
  (∀ (s : State) (r q : Reg) (v : Word),
    (s.writeX r v).readX q = (if q = 0#5 then 0#64 else if q = r then v else s.readX q) ∧
    s.writeX 0#5 v = s ∧ s.readX 0#5 = 0#64 ∧
    { s.writeX r v with x := s.x } = s ∧
    (s.writeF r v).readF q = (if q = r then v else s.readF q) ∧
    (s.writeF r v).csr.mstatus.fs = 3#2 ∧
    (let t := s.writeF r v
     { t with f := s.f, csr := { t.csr with mstatus := { t.csr.mstatus with fs := s.csr.mstatus.fs } } } = s)) ∧
  (∀ (s : State) (target : Word),
    (s.retireTo target).pc = target ∧ (s.retireTo target).csr.minstret = BitVec.ofNat 64 (s.csr.minstret.toNat + 1) ∧
    (s.retireTo target).atBoundary = true ∧
    { s.retireTo target with pc := s.pc, csr := s.csr, atBoundary := s.atBoundary } = s ∧
    { (s.retireTo target).csr with minstret := s.csr.minstret } = s.csr) ∧
  (∀ (s : State) (flags : FFlags),
    s.accrue 0#5 = s ∧
    (flags ≠ 0#5 → s.accrue flags = { s with
      csr := { s.csr with fflags := s.csr.fflags ||| flags, mstatus := { s.csr.mstatus with fs := 3#2 } } }))

/-- LUI, AUIPC, ADDI, XORI, ORI, ANDI, ADD, SUB, XOR, OR, AND complete with the results of the integers (R403, R404,
R405, R408, R409, R410, R414, R415, R419, R422, R423). -/
def Obligations.AddSubtractLogicResults : Prop :=
  ∀ (s : State) (rd rs1 rs2 : Reg) (imm : BitVec 12) (u : BitVec 20), let a := s.readX rs1; let b := s.readX rs2
    CompletesX (.lui rd u) s rd (BitVec.ofInt 64 (u.toInt * 4096)) 4#64 ∧
    CompletesX (.auipc rd u) s rd (BitVec.ofInt 64 (s.pc.toInt + u.toInt * 4096)) 4#64 ∧
    CompletesX (.addi rd rs1 imm) s rd (BitVec.ofInt 64 (a.toInt + imm.toInt)) 4#64 ∧
    CompletesX (.xori rd rs1 imm) s rd (a ^^^ BitVec.ofInt 64 imm.toInt) 4#64 ∧
    CompletesX (.ori rd rs1 imm) s rd (a ||| BitVec.ofInt 64 imm.toInt) 4#64 ∧
    CompletesX (.andi rd rs1 imm) s rd (a &&& BitVec.ofInt 64 imm.toInt) 4#64 ∧
    CompletesX (.add rd rs1 rs2) s rd (BitVec.ofInt 64 (a.toInt + b.toInt)) 4#64 ∧
    CompletesX (.sub rd rs1 rs2) s rd (BitVec.ofInt 64 (a.toInt - b.toInt)) 4#64 ∧
    CompletesX (.xor rd rs1 rs2) s rd (a ^^^ b) 4#64 ∧
    CompletesX (.or rd rs1 rs2) s rd (a ||| b) 4#64 ∧
    CompletesX (.and rd rs1 rs2) s rd (a &&& b) 4#64

/-- The shifts and SLT, SLTU, SLTI, SLTIU complete with the results of the integers (R402, R406, R407, R411, R412,
R413, R416, R417, R418, R420, R421). -/
def Obligations.ShiftAndCompareResults : Prop :=
  (∀ (s : State) (rd rs1 rs2 : Reg) (sh : BitVec 6), let a := s.readX rs1; let n := (s.readX rs2).toNat % 64
    CompletesX (.slli rd rs1 sh) s rd (BitVec.ofNat 64 (a.toNat * 2 ^ sh.toNat)) 4#64 ∧
    CompletesX (.srli rd rs1 sh) s rd (BitVec.ofNat 64 (a.toNat / 2 ^ sh.toNat)) 4#64 ∧
    CompletesX (.srai rd rs1 sh) s rd (BitVec.ofInt 64 (a.toInt / 2 ^ sh.toNat)) 4#64 ∧
    CompletesX (.sll rd rs1 rs2) s rd (BitVec.ofNat 64 (a.toNat * 2 ^ n)) 4#64 ∧
    CompletesX (.srl rd rs1 rs2) s rd (BitVec.ofNat 64 (a.toNat / 2 ^ n)) 4#64 ∧
    CompletesX (.sra rd rs1 rs2) s rd (BitVec.ofInt 64 (a.toInt / 2 ^ n)) 4#64) ∧
  (∀ (s : State) (rd rs1 rs2 : Reg) (imm : BitVec 12), let a := s.readX rs1; let b := s.readX rs2
    CompletesX (.slti rd rs1 imm) s rd (if a.toInt < imm.toInt then 1#64 else 0#64) 4#64 ∧
    CompletesX (.sltiu rd rs1 imm) s rd (if a.toNat < (BitVec.ofInt 64 imm.toInt).toNat then 1#64 else 0#64) 4#64 ∧
    CompletesX (.slt rd rs1 rs2) s rd (if a.toInt < b.toInt then 1#64 else 0#64) 4#64 ∧
    CompletesX (.sltu rd rs1 rs2) s rd (if a.toNat < b.toNat then 1#64 else 0#64) 4#64)

/-- The word instructions complete with the 32-bit result, sign-extended (R401, R402, R424, R425, R426, R427, R428,
R429, R430, R431, R432). -/
def Obligations.WordResults : Prop :=
  ∀ (s : State) (rd rs1 rs2 : Reg) (imm : BitVec 12) (sh : BitVec 5),
    let a := s.readX rs1; let b := s.readX rs2; let n := b.toNat % 32
    let word (z : Int) : Word := BitVec.ofInt 64 (z.bmod (2 ^ 32))
    CompletesX (.addiw rd rs1 imm) s rd (word (a.toInt + imm.toInt)) 4#64 ∧
    CompletesX (.slliw rd rs1 sh) s rd (word (a.toNat * 2 ^ sh.toNat)) 4#64 ∧
    CompletesX (.srliw rd rs1 sh) s rd (word ((a.toNat % 2 ^ 32) / 2 ^ sh.toNat)) 4#64 ∧
    CompletesX (.sraiw rd rs1 sh) s rd (word (a.toInt.bmod (2 ^ 32) / 2 ^ sh.toNat)) 4#64 ∧
    CompletesX (.addw rd rs1 rs2) s rd (word (a.toInt + b.toInt)) 4#64 ∧
    CompletesX (.subw rd rs1 rs2) s rd (word (a.toInt - b.toInt)) 4#64 ∧
    CompletesX (.sllw rd rs1 rs2) s rd (word (a.toNat * 2 ^ n)) 4#64 ∧
    CompletesX (.srlw rd rs1 rs2) s rd (word ((a.toNat % 2 ^ 32) / 2 ^ n)) 4#64 ∧
    CompletesX (.sraw rd rs1 rs2) s rd (word (a.toInt.bmod (2 ^ 32) / 2 ^ n)) 4#64

/-- MUL, MULH, MULHSU, MULHU, MULW complete with the halves of the exact product (R512). -/
def Obligations.MultiplyResults : Prop :=
  ∀ (s : State) (rd rs1 rs2 : Reg), let a := s.readX rs1; let b := s.readX rs2
    CompletesX (.mul rd rs1 rs2) s rd (BitVec.ofInt 64 (a.toInt * b.toInt)) 4#64 ∧
    CompletesX (.mul rd rs1 rs2) s rd (BitVec.ofNat 64 (a.toNat * b.toNat)) 4#64 ∧
    CompletesX (.mul rd rs1 rs2) s rd (BitVec.ofInt 64 (a.toInt * b.toNat)) 4#64 ∧
    CompletesX (.mulh rd rs1 rs2) s rd (BitVec.ofInt 64 (a.toInt * b.toInt / 2 ^ 64)) 4#64 ∧
    CompletesX (.mulhsu rd rs1 rs2) s rd (BitVec.ofInt 64 (a.toInt * b.toNat / 2 ^ 64)) 4#64 ∧
    CompletesX (.mulhu rd rs1 rs2) s rd (BitVec.ofNat 64 (a.toNat * b.toNat / 2 ^ 64)) 4#64 ∧
    CompletesX (.mulw rd rs1 rs2) s rd
      (BitVec.ofInt 64 (((a.toNat % 2 ^ 32 * (b.toNat % 2 ^ 32) : Nat) : Int).bmod (2 ^ 32))) 4#64

/-- DIV, DIVU, REM, REMU and their word forms complete with the table of the spec, never trapping (R510, R511). -/
def Obligations.DivideResults : Prop :=
  (∀ (s : State) (rd rs1 rs2 : Reg), let a := s.readX rs1; let b := s.readX rs2
    let x := a.toInt; let y := b.toInt
    let q : Word := if y = 0 then BitVec.ofInt 64 (-1) else if x = -2 ^ 63 ∧ y = -1 then BitVec.ofInt 64 (-2 ^ 63)
      else BitVec.ofInt 64 (x.tdiv y)
    let r : Word := if y = 0 then a else if x = -2 ^ 63 ∧ y = -1 then 0#64 else BitVec.ofInt 64 (x.tmod y)
    CompletesX (.div rd rs1 rs2) s rd q 4#64 ∧ CompletesX (.rem rd rs1 rs2) s rd r 4#64 ∧
    (y ≠ 0 → ¬(x = -2 ^ 63 ∧ y = -1) →
      x = q.toInt * y + r.toInt ∧ r.toInt.natAbs < y.natAbs ∧ (r.toInt = 0 ∨ (r.toInt < 0 ↔ x < 0))) ∧
    CompletesX (.divu rd rs1 rs2) s rd (if y = 0 then BitVec.ofNat 64 (2 ^ 64 - 1) else BitVec.ofNat 64 (a.toNat / b.toNat))
      4#64 ∧
    CompletesX (.remu rd rs1 rs2) s rd (if y = 0 then a else BitVec.ofNat 64 (a.toNat % b.toNat)) 4#64) ∧
  (∀ (s : State) (rd rs1 rs2 : Reg), let a := (s.readX rs1).extractLsb' 0 32; let b := (s.readX rs2).extractLsb' 0 32
    let x := a.toInt; let y := b.toInt
    let q : BitVec 32 := if y = 0 then BitVec.ofInt 32 (-1) else if x = -2 ^ 31 ∧ y = -1 then BitVec.ofInt 32 (-2 ^ 31)
      else BitVec.ofInt 32 (x.tdiv y)
    let r : BitVec 32 := if y = 0 then a else if x = -2 ^ 31 ∧ y = -1 then 0#32 else BitVec.ofInt 32 (x.tmod y)
    CompletesX (.divw rd rs1 rs2) s rd (q.signExtend 64) 4#64 ∧ CompletesX (.remw rd rs1 rs2) s rd (r.signExtend 64) 4#64 ∧
    (y ≠ 0 → ¬(x = -2 ^ 31 ∧ y = -1) →
      x = q.toInt * y + r.toInt ∧ r.toInt.natAbs < y.natAbs ∧ (r.toInt = 0 ∨ (r.toInt < 0 ↔ x < 0))) ∧
    CompletesX (.divuw rd rs1 rs2) s rd
      ((if y = 0 then BitVec.ofNat 32 (2 ^ 32 - 1) else BitVec.ofNat 32 (a.toNat / b.toNat)).signExtend 64) 4#64 ∧
    CompletesX (.remuw rd rs1 rs2) s rd ((if y = 0 then a else BitVec.ofNat 32 (a.toNat % b.toNat)).signExtend 64) 4#64)

/-- JAL, JALR and the six branches go to their targets; jumps write pc + 4; branches decide by the integers (R471,
R473, R474, R475, R476, R477, R478, R479, R480). -/
def Obligations.ControlTransfersGoToTheirTargets : Prop :=
  (∀ (s : State) (rd rs1 : Reg) (imm : BitVec 12) (j : BitVec 21),
    exec (.jal rd j) s = .next ((s.writeX rd (s.pc + 4#64)).retireTo (BitVec.ofInt 64 (s.pc.toInt + j.toInt))) ∧
    (let sum := BitVec.ofInt 64 ((s.readX rs1).toInt + imm.toInt)
     exec (.jalr rd rs1 imm) s = .next ((s.writeX rd (s.pc + 4#64)).retireTo (BitVec.ofNat 64 (sum.toNat / 2 * 2))))) ∧
  (∀ (s : State) (rs1 rs2 : Reg) (imm : BitVec 13), let a := s.readX rs1; let b := s.readX rs2
    let goes (i : Instr) (taken : Prop) : Prop :=
      (taken → exec i s = .next (s.retireTo (BitVec.ofInt 64 (s.pc.toInt + imm.toInt)))) ∧
      (¬taken → exec i s = .next (s.retireTo (BitVec.ofInt 64 (s.pc.toInt + 4))))
    goes (.beq rs1 rs2 imm) (a.toInt = b.toInt) ∧ goes (.bne rs1 rs2 imm) (a.toInt ≠ b.toInt) ∧
    goes (.blt rs1 rs2 imm) (a.toInt < b.toInt) ∧ goes (.bge rs1 rs2 imm) (b.toInt ≤ a.toInt) ∧
    goes (.bltu rs1 rs2 imm) (a.toNat < b.toNat) ∧ goes (.bgeu rs1 rs2 imm) (b.toNat ≤ a.toNat))

/-- The compressed computational and control instructions complete with the results of their rules and size 2 (R740,
R741, R744, R751, R752, R755, R756, R760, R766, R767, R773, R776). -/
def Obligations.CompressedComputationAndControl : Prop :=
  (∀ (s : State) (rd rs2 : Reg) (d t : CReg) (imm : BitVec 6) (n : BitVec 10),
    let D : Reg := BitVec.ofNat 5 (8 + d.toNat); let T : Reg := BitVec.ofNat 5 (8 + t.toNat)
    let a := s.readX D; let b := s.readX T; let x := s.readX rd; let y := s.readX rs2; let p := s.readX 2#5
    let word (z : Int) : Word := BitVec.ofInt 64 (z.bmod (2 ^ 32))
    CompletesX (.cAddi4spn d n) s D (BitVec.ofInt 64 (p.toInt + n.toNat)) 2#64 ∧
    exec (.cNop imm) s = .next (s.retireTo (s.pc + 2#64)) ∧
    CompletesX (.cAddi rd imm) s rd (BitVec.ofInt 64 (x.toInt + imm.toInt)) 2#64 ∧
    CompletesX (.cAddiw rd imm) s rd (word (x.toInt + imm.toInt)) 2#64 ∧
    CompletesX (.cLi rd imm) s rd (BitVec.ofInt 64 imm.toInt) 2#64 ∧
    CompletesX (.cAddi16sp n) s 2#5 (BitVec.ofInt 64 (p.toInt + n.toInt)) 2#64 ∧
    CompletesX (.cLui rd imm) s rd (BitVec.ofInt 64 (imm.toInt * 4096)) 2#64 ∧
    CompletesX (.cSrli d imm) s D (BitVec.ofNat 64 (a.toNat / 2 ^ imm.toNat)) 2#64 ∧
    CompletesX (.cSrai d imm) s D (BitVec.ofInt 64 (a.toInt / 2 ^ imm.toNat)) 2#64 ∧
    CompletesX (.cAndi d imm) s D (a &&& BitVec.ofInt 64 imm.toInt) 2#64 ∧
    CompletesX (.cSub d t) s D (BitVec.ofInt 64 (a.toInt - b.toInt)) 2#64 ∧
    CompletesX (.cXor d t) s D (a ^^^ b) 2#64 ∧
    CompletesX (.cOr d t) s D (a ||| b) 2#64 ∧
    CompletesX (.cAnd d t) s D (a &&& b) 2#64 ∧
    CompletesX (.cSubw d t) s D (word (a.toInt - b.toInt)) 2#64 ∧
    CompletesX (.cAddw d t) s D (word (a.toInt + b.toInt)) 2#64 ∧
    CompletesX (.cSlli rd imm) s rd (BitVec.ofNat 64 (x.toNat * 2 ^ imm.toNat)) 2#64 ∧
    CompletesX (.cMv rd rs2) s rd y 2#64 ∧
    CompletesX (.cAdd rd rs2) s rd (BitVec.ofInt 64 (x.toInt + y.toInt)) 2#64) ∧
  (∀ (s : State) (rs1 : Reg) (d : CReg) (j : BitVec 12) (off : BitVec 9),
    let v := s.readX (BitVec.ofNat 5 (8 + d.toNat)); let target := BitVec.ofNat 64 ((s.readX rs1).toNat / 2 * 2)
    let far := BitVec.ofInt 64 (s.pc.toInt + off.toInt); let near := BitVec.ofInt 64 (s.pc.toInt + 2)
    exec (.cJ j) s = .next (s.retireTo (BitVec.ofInt 64 (s.pc.toInt + j.toInt))) ∧
    exec (.cJr rs1) s = .next (s.retireTo target) ∧
    exec (.cJalr rs1) s = .next ((s.writeX 1#5 (s.pc + 2#64)).retireTo target) ∧
    exec (.cBeqz d off) s = .next (s.retireTo (if v.toNat = 0 then far else near)) ∧
    exec (.cBnez d off) s = .next (s.retireTo (if v.toNat = 0 then near else far)))

/-- A compressed instruction that transfers no control has the effect of its expansion, with pc + 2 (R302, R740,
R333). -/
def Obligations.CompressedActsAsItsExpansion : Prop :=
  ∀ (c i : Instr) (s t : State), expansion c = some i → instrClass c ≠ .branch → instrClass c ≠ .jump →
    exec i s = .next t → t.atBoundary = true → exec c s = .next { t with pc := s.pc + 2#64 }

/-- Every load completes with the bytes read, extended or boxed as its rule says, every store with its write (R490,
R492, R493, R494, R495, R496, R497, R501, R581, R582, R651, R745). -/
def Obligations.LoadsAndStoresComplete : Prop :=
  ((∀ (s t : State) (rd rs1 : Reg) (imm : BitVec 12) (v pa : Word), let ea := BitVec.ofInt 64 ((s.readX rs1).toInt + imm.toInt)
    let done (w : Word) : Result := .next ((t.writeX rd w).retireTo (s.pc + 4#64))
    (s.memRead ea 1 = .ok (v, pa) t → exec (.lb rd rs1 imm) s = done ((v.extractLsb' 0 8).signExtend 64)) ∧
    (s.memRead ea 2 = .ok (v, pa) t → exec (.lh rd rs1 imm) s = done ((v.extractLsb' 0 16).signExtend 64)) ∧
    (s.memRead ea 4 = .ok (v, pa) t → exec (.lw rd rs1 imm) s = done ((v.extractLsb' 0 32).signExtend 64)) ∧
    (s.memRead ea 8 = .ok (v, pa) t → exec (.ld rd rs1 imm) s = done v) ∧
    (s.memRead ea 1 = .ok (v, pa) t → exec (.lbu rd rs1 imm) s = done ((v.extractLsb' 0 8).setWidth 64)) ∧
    (s.memRead ea 2 = .ok (v, pa) t → exec (.lhu rd rs1 imm) s = done ((v.extractLsb' 0 16).setWidth 64)) ∧
    (s.memRead ea 4 = .ok (v, pa) t → exec (.lwu rd rs1 imm) s = done ((v.extractLsb' 0 32).setWidth 64))) ∧
  (∀ (s t : State) (rd : Reg) (d b : CReg) (w : BitVec 7) (u : BitVec 8) (sw : BitVec 8) (su : BitVec 9) (v pa : Word),
    let D : Reg := BitVec.ofNat 5 (8 + d.toNat); let base := (s.readX (BitVec.ofNat 5 (8 + b.toNat))).toInt
    let p := (s.readX 2#5).toInt
    let done (r : Reg) (x : Word) : Result := .next ((t.writeX r x).retireTo (s.pc + 2#64))
    (s.memRead (BitVec.ofInt 64 (base + w.toNat)) 4 = .ok (v, pa) t →
      exec (.cLw d b w) s = done D ((v.extractLsb' 0 32).signExtend 64)) ∧
    (s.memRead (BitVec.ofInt 64 (base + u.toNat)) 8 = .ok (v, pa) t → exec (.cLd d b u) s = done D v) ∧
    (s.memRead (BitVec.ofInt 64 (p + sw.toNat)) 4 = .ok (v, pa) t →
      exec (.cLwsp rd sw) s = done rd ((v.extractLsb' 0 32).signExtend 64)) ∧
    (s.memRead (BitVec.ofInt 64 (p + su.toNat)) 8 = .ok (v, pa) t → exec (.cLdsp rd su) s = done rd v))) ∧
  (∀ (s t : State) (rd rs1 : Reg) (imm : BitVec 12) (d b : CReg) (u : BitVec 8) (su : BitVec 9) (v pa : Word),
    s.csr.mstatus.fs ≠ 0#2 →
    let done (r : Reg) (x size : Word) : Result := .next ((t.writeF r x).retireTo (s.pc + size))
    (s.memRead (BitVec.ofInt 64 ((s.readX rs1).toInt + imm.toInt)) 4 = .ok (v, pa) t →
      exec (.flw rd rs1 imm) s = done rd (0xFFFFFFFF#32 ++ v.extractLsb' 0 32) 4#64) ∧
    (s.memRead (BitVec.ofInt 64 ((s.readX rs1).toInt + imm.toInt)) 8 = .ok (v, pa) t →
      exec (.fld rd rs1 imm) s = done rd v 4#64) ∧
    (s.memRead (BitVec.ofInt 64 ((s.readX (BitVec.ofNat 5 (8 + b.toNat))).toInt + u.toNat)) 8 = .ok (v, pa) t →
      exec (.cFld d b u) s = done (BitVec.ofNat 5 (8 + d.toNat)) v 2#64) ∧
    (s.memRead (BitVec.ofInt 64 ((s.readX 2#5).toInt + su.toNat)) 8 = .ok (v, pa) t →
      exec (.cFldsp rd su) s = done rd v 2#64)) ∧
  ((∀ (s t : State) (rs1 rs2 : Reg) (imm : BitVec 12), let ea := BitVec.ofInt 64 ((s.readX rs1).toInt + imm.toInt)
    let v := s.readX rs2; let done : Result := .next (t.retireTo (s.pc + 4#64))
    (s.memWrite ea 1 v = .ok () t → exec (.sb rs1 rs2 imm) s = done) ∧
    (s.memWrite ea 2 v = .ok () t → exec (.sh rs1 rs2 imm) s = done) ∧
    (s.memWrite ea 4 v = .ok () t → exec (.sw rs1 rs2 imm) s = done) ∧
    (s.memWrite ea 8 v = .ok () t → exec (.sd rs1 rs2 imm) s = done) ∧
    (s.csr.mstatus.fs ≠ 0#2 → s.memWrite ea 4 (s.readF rs2) = .ok () t → exec (.fsw rs1 rs2 imm) s = done) ∧
    (s.csr.mstatus.fs ≠ 0#2 → s.memWrite ea 8 (s.readF rs2) = .ok () t → exec (.fsd rs1 rs2 imm) s = done)) ∧
  (∀ (s t : State) (rs2 : Reg) (b d : CReg) (w : BitVec 7) (u sw : BitVec 8) (su : BitVec 9),
    let D : Reg := BitVec.ofNat 5 (8 + d.toNat); let base := (s.readX (BitVec.ofNat 5 (8 + b.toNat))).toInt
    let p := (s.readX 2#5).toInt; let done : Result := .next (t.retireTo (s.pc + 2#64))
    (s.memWrite (BitVec.ofInt 64 (base + w.toNat)) 4 (s.readX D) = .ok () t → exec (.cSw b d w) s = done) ∧
    (s.memWrite (BitVec.ofInt 64 (base + u.toNat)) 8 (s.readX D) = .ok () t → exec (.cSd b d u) s = done) ∧
    (s.memWrite (BitVec.ofInt 64 (p + sw.toNat)) 4 (s.readX rs2) = .ok () t → exec (.cSwsp rs2 sw) s = done) ∧
    (s.memWrite (BitVec.ofInt 64 (p + su.toNat)) 8 (s.readX rs2) = .ok () t → exec (.cSdsp rs2 su) s = done) ∧
    (s.csr.mstatus.fs ≠ 0#2 → s.memWrite (BitVec.ofInt 64 (base + u.toNat)) 8 (s.readF D) = .ok () t →
      exec (.cFsd b d u) s = done) ∧
    (s.csr.mstatus.fs ≠ 0#2 → s.memWrite (BitVec.ofInt 64 (p + su.toNat)) 8 (s.readF rs2) = .ok () t →
      exec (.cFsdsp rs2 su) s = done)))

/-- Aligned untranslated accesses inside RAM succeed: a read gives its bytes little-endian, a write stores them alone
(R160, R171, R200, R201, R206, R230, R244). -/
def Obligations.AlignedRamAccesses : Prop :=
  (∀ (s : State) (va : Word) (n : Nat), n ∈ [1, 2, 4, 8] → (satpMode s.csr.satp = 0#4 ∨ s.effPriv .load = .M) →
    va.toNat % n = 0 → State.inRam s.cfg va.toNat n = true →
    s.memRead va n =
      .ok (BitVec.ofNat 64 (∑ k ∈ Finset.range n, (s.byteAt (va.toNat + k)).toNat * 256 ^ k), va) s) ∧
  (∀ (s : State) (va v : Word) (n : Nat), n ∈ [1, 2, 4, 8] → (satpMode s.csr.satp = 0#4 ∨ s.effPriv .store = .M) →
    va.toNat % n = 0 → State.inRam s.cfg va.toNat n = true →
    ∃ t, s.memWrite va n v = .ok () t ∧
      (∀ k < n, t.byteAt (va.toNat + k) = v.extractLsb' (8 * k) 8) ∧
      (∀ a, a < va.toNat ∨ va.toNat + n ≤ a → t.byteAt a = s.byteAt a) ∧
      State.SameCore s t ∧ t.itlb = s.itlb ∧ t.dtlb = s.dtlb ∧ t.clint = s.clint ∧ t.plic = s.plic ∧ t.devLog = s.devLog ∧
      t.ended = s.ended)

/-- A load after a store to the same address returns the stored value (R162, R263, R506). -/
def Obligations.StoreThenLoadRoundTrip : Prop :=
  ∀ (s t : State) (rd rs1 rs2 : Reg) (imm : BitVec 12),
    (satpMode s.csr.satp = 0#4 ∨ (s.effPriv .load = .M ∧ s.effPriv .store = .M)) →
    let ea := (BitVec.ofInt 64 ((s.readX rs1).toInt + imm.toInt)).toNat; let v := s.readX rs2
    let loads (i : Instr) (x : Word) : Prop := CompletesX i t rd x 4#64
    (ea % 4 = 0 → State.inRam s.cfg ea 4 = true → exec (.sw rs1 rs2 imm) s = .next t →
      loads (.lw rd rs1 imm) (BitVec.ofInt 64 (v.toInt.bmod (2 ^ 32)))) ∧
    (ea % 8 = 0 → State.inRam s.cfg ea 8 = true → exec (.sd rs1 rs2 imm) s = .next t → loads (.ld rd rs1 imm) v) ∧
    (ea % 2 = 0 → State.inRam s.cfg ea 2 = true → exec (.sh rs1 rs2 imm) s = .next t →
      loads (.lhu rd rs1 imm) (BitVec.ofNat 64 (v.toNat % 2 ^ 16))) ∧
    (State.inRam s.cfg ea 1 = true → exec (.sb rs1 rs2 imm) s = .next t →
      loads (.lbu rd rs1 imm) (BitVec.ofNat 64 (v.toNat % 2 ^ 8)))

/-- Where a data access traps: misaligned, then a page or access fault of translation, then the bus; tval = ea (R19,
R181, R205, R206, R230, R491, R534, R536, R712, R821, R822, R825). That the trap is entered from s itself, with the A
and D update, the TLB fill and the device read of a refused access discarded, is log 16 (DEDUCED from R19, R206, R830
and R835; unsafe). -/
def Obligations.DataAccessExceptions : Prop :=
  ∀ (i : Instr) (s : State) (acc : Access) (ea : Word) (n : Nat), dataAccess i s = some (acc, ea, n) →
    (isFp i = true → s.csr.mstatus.fs ≠ 0#2) →
    let traps (e : Exc) (v : Word) : Prop := exec i s = .next (s.enterTrap (.exception e) s.pc v)
    (ea.toNat % n ≠ 0 → traps acc.misaligned ea) ∧
    (∀ e v, ea.toNat % n = 0 → s.translate acc ea = .raise e v → v = ea ∧ (e = acc.pageFault ∨ e = acc.accessFault) ∧ traps e ea) ∧
    (∀ pa t, ea.toNat % n = 0 → s.translate acc ea = .ok pa t →
      (ownerOf t.cfg pa.toNat = none ∨ (ownerOf t.cfg pa.toNat = some .ram ∧ State.inRam t.cfg pa.toNat n = false) ∨
        (∃ d r, ownerOf t.cfg pa.toNat = some (.device d r) ∧ accepts r pa.toNat n = false)) →
      (instrClass i = .sc → t.resv = some (t.granule pa)) → traps acc.accessFault ea)

/-- An instruction that retires changes no byte of RAM but those it stores to (R19, R154, R171, R206). -/
def Obligations.MemoryFrame : Prop :=
  ∀ (i : Instr) (s t : State), exec i s = .next t → t.atBoundary = true →
    match dataAccess i s with
    | none => ∀ a, t.byteAt a = s.byteAt a
    | some (acc, ea, n) => ∀ pa u, s.translate acc ea = .ok pa u →
        ∀ a, (acc = .store → a < pa.toNat ∨ pa.toNat + n ≤ a) → t.byteAt a = u.byteAt a

/-- An instruction that retires changes no register but its destination, and no CSR its rule does not name (R40, R41,
R48, R326, R704, R705, R713). -/
def Obligations.RegisterFrame : Prop :=
  ∀ (i : Instr) (s t : State), exec i s = .next t → t.atBoundary = true →
    (∀ r : Reg, destX i ≠ some r → t.readX r = s.readX r) ∧ (∀ r : Reg, destF i ≠ some r → t.readF r = s.readF r) ∧
    t.cfg = s.cfg ∧ t.lines = s.lines ∧ t.inputs = s.inputs ∧
    (instrClass i ≠ .lr → instrClass i ≠ .sc → t.resv = s.resv) ∧
    ((instrClass i ≠ .system ∨ i = .wfi ∨ ∃ rs1 rs2, i = .sfenceVma rs1 rs2) → t.priv = s.priv ∧
      t.csr = { s.csr with
        minstret := s.csr.minstret + 1#64, fflags := t.csr.fflags,
        mstatus := { s.csr.mstatus with fs := t.csr.mstatus.fs } } ∧
      (isFp i = false → t.csr.fflags = s.csr.fflags ∧ t.csr.mstatus.fs = s.csr.mstatus.fs))

/-- A device access is performed once and recorded; a syscon write of 0x5555 or 0x7777 ends the run (R172, R173, R174,
R905). -/
def Obligations.DeviceAccessesAndTheEndOfARun : Prop :=
  (∀ (s : State) (d : Device) (r : DeviceRange) (pa v : Word) (n : Nat), ownerOf s.cfg pa.toNat = some (.device d r) →
    accepts r pa.toNat n = true →
    (∃ x t, s.busRead pa n = some (x, t) ∧ t.devLog = .read d (pa.toNat - r.base) n x :: s.devLog ∧ t.mem = s.mem ∧
      State.SameCore s t) ∧
    (∃ t, s.busWrite pa n v = some t ∧
      t.devLog = .write d (pa.toNat - r.base) n (v &&& BitVec.ofNat 64 (2 ^ (8 * n) - 1)) :: s.devLog ∧ t.mem = s.mem ∧
      State.SameCore s t)) ∧
  (∀ (s : State) (n off : Nat) (v : Word), s.ended = none → 2 ≤ n →
    let t := s.deviceWrite .syscon off n v
    t.ended = (if off = 0 ∧ v.toNat % 2 ^ 16 = 0x5555 then some .shutdown
      else if off = 0 ∧ v.toNat % 2 ^ 16 = 0x7777 then some .reboot else none) ∧
    (∀ how, t.ended = some how → step t = .fault (.runEnded how)))

/-- LR reserves the granule it read; SC writes and gives 0 exactly when its granule is reserved, else gives 1 (R530,
R531, R535, R536, R537, R538). What sets and clears the reservation is log 17 (DEDUCED from these rules). -/
def Obligations.LoadReservedAndStoreConditional : Prop :=
  (∀ (s t : State) (aq rl : BitVec 1) (rd rs1 : Reg) (v pa : Word),
    let G := if s.cfg.l1d.enabled then s.cfg.l1d.lineBytes else 64
    let done (x : Word) : Result :=
      .next (State.retireTo { t.writeX rd x with resv := some (pa &&& ~~~BitVec.ofNat 64 (G - 1)) } (s.pc + 4#64))
    (s.memRead (s.readX rs1) 4 = .ok (v, pa) t → exec (.lrW aq rl rd rs1) s = done ((v.extractLsb' 0 32).signExtend 64)) ∧
    (s.memRead (s.readX rs1) 8 = .ok (v, pa) t → exec (.lrD aq rl rd rs1) s = done v)) ∧
  (∀ (s t : State) (aq rl : BitVec 1) (rd rs1 rs2 : Reg) (pa : Word), let a := s.readX rs1
    let G := if t.cfg.l1d.enabled then t.cfg.l1d.lineBytes else 64
    let granule := pa &&& ~~~BitVec.ofNat 64 (G - 1)
    let done (u : State) (x : Word) : Result := .next (State.retireTo { u.writeX rd x with resv := none } (s.pc + 4#64))
    s.translate .store a = .ok pa t →
    (∀ u, a.toNat % 4 = 0 → t.resv = some granule → t.busWrite pa 4 (s.readX rs2) = some u →
      exec (.scW aq rl rd rs1 rs2) s = done u 0#64) ∧
    (a.toNat % 4 = 0 → t.resv ≠ some granule → exec (.scW aq rl rd rs1 rs2) s = done t 1#64) ∧
    (∀ u, a.toNat % 8 = 0 → t.resv = some granule → t.busWrite pa 8 (s.readX rs2) = some u →
      exec (.scD aq rl rd rs1 rs2) s = done u 0#64) ∧
    (a.toNat % 8 = 0 → t.resv ≠ some granule → exec (.scD aq rl rd rs1 rs2) s = done t 1#64))

/-- The eighteen AMOs write f(old, operand) in one access and give the old value (R534, R539, R540, R541, R542, R543,
R544, R545, R546, R547, R549, R553). -/
def Obligations.AmoResults : Prop :=
  (∀ (s t u w : State) (aq rl : BitVec 1) (rd rs1 rs2 : Reg) (pa old : Word), (s.readX rs1).toNat % 4 = 0 →
    s.translate .store (s.readX rs1) = .ok pa t → t.busRead pa 4 = some (old, u) →
    let x := old.extractLsb' 0 32; let y := (s.readX rs2).extractLsb' 0 32
    let does (i : Instr) (new : BitVec 32) : Prop := u.busWrite pa 4 (new.setWidth 64) = some w →
      exec i s = .next ((w.writeX rd (x.signExtend 64)).retireTo (s.pc + 4#64))
    does (.amoswapW aq rl rd rs1 rs2) (y) ∧
    does (.amoaddW aq rl rd rs1 rs2) (BitVec.ofNat 32 (x.toNat + y.toNat)) ∧
    does (.amoxorW aq rl rd rs1 rs2) (x ^^^ y) ∧
    does (.amoandW aq rl rd rs1 rs2) (x &&& y) ∧
    does (.amoorW aq rl rd rs1 rs2) (x ||| y) ∧
    does (.amominW aq rl rd rs1 rs2) (if x.toInt < y.toInt then x else y) ∧
    does (.amomaxW aq rl rd rs1 rs2) (if x.toInt < y.toInt then y else x) ∧
    does (.amominuW aq rl rd rs1 rs2) (if x.toNat < y.toNat then x else y) ∧
    does (.amomaxuW aq rl rd rs1 rs2) (if x.toNat < y.toNat then y else x)) ∧
  (∀ (s t u w : State) (aq rl : BitVec 1) (rd rs1 rs2 : Reg) (pa x : Word), (s.readX rs1).toNat % 8 = 0 →
    s.translate .store (s.readX rs1) = .ok pa t → t.busRead pa 8 = some (x, u) → let y := s.readX rs2
    let does (i : Instr) (new : Word) : Prop := u.busWrite pa 8 new = some w →
      exec i s = .next ((w.writeX rd x).retireTo (s.pc + 4#64))
    does (.amoswapD aq rl rd rs1 rs2) (y) ∧
    does (.amoaddD aq rl rd rs1 rs2) (BitVec.ofNat 64 (x.toNat + y.toNat)) ∧
    does (.amoxorD aq rl rd rs1 rs2) (x ^^^ y) ∧
    does (.amoandD aq rl rd rs1 rs2) (x &&& y) ∧
    does (.amoorD aq rl rd rs1 rs2) (x ||| y) ∧
    does (.amominD aq rl rd rs1 rs2) (if x.toInt < y.toInt then x else y) ∧
    does (.amomaxD aq rl rd rs1 rs2) (if x.toInt < y.toInt then y else x) ∧
    does (.amominuD aq rl rd rs1 rs2) (if x.toNat < y.toNat then x else y) ∧
    does (.amomaxuD aq rl rd rs1 rs2) (if x.toNat < y.toNat then y else x))

/-- The instructions with a rounding mode complete with their result (singles boxed) and their flags (R561, R563,
R566, R575, R583, R587, R597, R605, R650, R657, R667, R668). -/
def Obligations.FpArithmeticCompletes : Prop :=
  (∀ (s : State) (rm : BitVec 3) (m : RoundingMode) (rd rs1 rs2 rs3 : Reg), s.csr.mstatus.fs ≠ 0#2 →
    s.roundingMode rm = some m →
    let a := s.readS rs1; let b := s.readS rs2; let c := s.readS rs3; let x := s.readX rs1
    let gives (i : Instr) (r : BitVec 32 × FFlags) : Prop := CompletesF i s rd (0xFFFFFFFF#32 ++ r.1) r.2
    gives (.fmaddS rm rd rs1 rs2 rs3) (fmaS m false false a b c) ∧
    gives (.fmsubS rm rd rs1 rs2 rs3) (fmaS m false true a b c) ∧
    gives (.fnmsubS rm rd rs1 rs2 rs3) (fmaS m true false a b c) ∧
    gives (.fnmaddS rm rd rs1 rs2 rs3) (fmaS m true true a b c) ∧
    gives (.faddS rm rd rs1 rs2) (addS m a b) ∧
    gives (.fsubS rm rd rs1 rs2) (subS m a b) ∧
    gives (.fmulS rm rd rs1 rs2) (mulS m a b) ∧
    gives (.fdivS rm rd rs1 rs2) (divS m a b) ∧
    gives (.fsqrtS rm rd rs1) (sqrtS m a) ∧
    gives (.fcvtSW rm rd rs1) (ofIntS m ((x.extractLsb' 0 32).toInt)) ∧
    gives (.fcvtSWu rm rd rs1) (ofIntS m (x.extractLsb' 0 32).toNat) ∧
    gives (.fcvtSL rm rd rs1) (ofIntS m x.toInt) ∧
    gives (.fcvtSLu rm rd rs1) (ofIntS m x.toNat) ∧
    gives (.fcvtSD rm rd rs1) (doubleToSingle m (s.readF rs1)) ∧
    (let r := toIntS m (-2 ^ 31) (2 ^ 31 - 1) a; CompletesXF (.fcvtWS rm rd rs1) s rd ((BitVec.ofInt 32 r.1).signExtend 64) r.2) ∧
    (let r := toIntS m 0 (2 ^ 32 - 1) a; CompletesXF (.fcvtWuS rm rd rs1) s rd ((BitVec.ofInt 32 r.1).signExtend 64) r.2) ∧
    (let r := toIntS m (-2 ^ 63) (2 ^ 63 - 1) a; CompletesXF (.fcvtLS rm rd rs1) s rd (BitVec.ofInt 64 r.1) r.2) ∧
    (let r := toIntS m 0 (2 ^ 64 - 1) a; CompletesXF (.fcvtLuS rm rd rs1) s rd (BitVec.ofInt 64 r.1) r.2)) ∧
  (∀ (s : State) (rm : BitVec 3) (m : RoundingMode) (rd rs1 rs2 rs3 : Reg), s.csr.mstatus.fs ≠ 0#2 →
    s.roundingMode rm = some m →
    let a := s.readF rs1; let b := s.readF rs2; let c := s.readF rs3; let x := s.readX rs1
    let gives (i : Instr) (r : BitVec 64 × FFlags) : Prop := CompletesF i s rd r.1 r.2
    gives (.fmaddD rm rd rs1 rs2 rs3) (fmaD m false false a b c) ∧
    gives (.fmsubD rm rd rs1 rs2 rs3) (fmaD m false true a b c) ∧
    gives (.fnmsubD rm rd rs1 rs2 rs3) (fmaD m true false a b c) ∧
    gives (.fnmaddD rm rd rs1 rs2 rs3) (fmaD m true true a b c) ∧
    gives (.faddD rm rd rs1 rs2) (addD m a b) ∧
    gives (.fsubD rm rd rs1 rs2) (subD m a b) ∧
    gives (.fmulD rm rd rs1 rs2) (mulD m a b) ∧
    gives (.fdivD rm rd rs1 rs2) (divD m a b) ∧
    gives (.fsqrtD rm rd rs1) (sqrtD m a) ∧
    gives (.fcvtDW rm rd rs1) (ofIntD m ((x.extractLsb' 0 32).toInt)) ∧
    gives (.fcvtDWu rm rd rs1) (ofIntD m (x.extractLsb' 0 32).toNat) ∧
    gives (.fcvtDL rm rd rs1) (ofIntD m x.toInt) ∧
    gives (.fcvtDLu rm rd rs1) (ofIntD m x.toNat) ∧
    gives (.fcvtDS rm rd rs1) (singleToDouble m (s.readS rs1)) ∧
    (let r := toIntD m (-2 ^ 31) (2 ^ 31 - 1) a; CompletesXF (.fcvtWD rm rd rs1) s rd ((BitVec.ofInt 32 r.1).signExtend 64) r.2) ∧
    (let r := toIntD m 0 (2 ^ 32 - 1) a; CompletesXF (.fcvtWuD rm rd rs1) s rd ((BitVec.ofInt 32 r.1).signExtend 64) r.2) ∧
    (let r := toIntD m (-2 ^ 63) (2 ^ 63 - 1) a; CompletesXF (.fcvtLD rm rd rs1) s rd (BitVec.ofInt 64 r.1) r.2) ∧
    (let r := toIntD m 0 (2 ^ 64 - 1) a; CompletesXF (.fcvtLuD rm rd rs1) s rd (BitVec.ofInt 64 r.1) r.2))

/-- Sign injection and moves complete on the bits; FCLASS gives the one bit its fields decide; no flag is raised
(R574, R592, R593, R594, R599, R602, R604, R662, R663, R664, R679, R682). -/
def Obligations.FpMovesSignsAndFclass : Prop :=
  (∀ (s : State) (rd rs1 rs2 : Reg), s.csr.mstatus.fs ≠ 0#2 →
    let a := s.readS rs1; let b := s.readS rs2; let p := s.readF rs1; let q := s.readF rs2
    let single (i : Instr) (r : BitVec 32) : Prop := CompletesF i s rd (0xFFFFFFFF#32 ++ r) 0#5
    let magS := a &&& 0x7FFFFFFF#32; let magD := p &&& 0x7FFFFFFFFFFFFFFF#64
    let signS := 0x80000000#32; let signD := 0x8000000000000000#64
    single (.fsgnjS rd rs1 rs2) (magS ||| (b &&& signS)) ∧
    single (.fsgnjnS rd rs1 rs2) (magS ||| (~~~b &&& signS)) ∧
    single (.fsgnjxS rd rs1 rs2) (magS ||| ((a ^^^ b) &&& signS)) ∧
    CompletesF (.fsgnjD rd rs1 rs2) s rd (magD ||| (q &&& signD)) 0#5 ∧
    CompletesF (.fsgnjnD rd rs1 rs2) s rd (magD ||| (~~~q &&& signD)) 0#5 ∧
    CompletesF (.fsgnjxD rd rs1 rs2) s rd (magD ||| ((p ^^^ q) &&& signD)) 0#5 ∧
    CompletesX (.fmvXW rd rs1) s rd ((p.extractLsb' 0 32).signExtend 64) 4#64 ∧
    single (.fmvWX rd rs1) ((s.readX rs1).extractLsb' 0 32) ∧
    CompletesX (.fmvXD rd rs1) s rd p 4#64 ∧
    CompletesF (.fmvDX rd rs1) s rd (s.readX rs1) 0#5 ∧
    CompletesX (.fclassS rd rs1) s rd (BitVec.ofNat 64 (fpClass .single a.toNat)) 4#64 ∧
    CompletesX (.fclassD rd rs1) s rd (BitVec.ofNat 64 (fpClass .double p.toNat)) 4#64) ∧
  ((∀ (s : State) (rd rs1 : Reg), s.csr.mstatus.fs ≠ 0#2 → let a := s.readS rs1
    let sign := a.extractLsb' 31 1; let ex := a.extractLsb' 23 8; let frac := a.extractLsb' 0 23
    let k := if ex = 0xFF#8 then
        if frac = 0#23 then (if sign = 1#1 then 0 else 7) else if frac.getLsbD 22 then 9 else 8
      else if ex = 0#8 then
        if frac = 0#23 then (if sign = 1#1 then 3 else 4) else (if sign = 1#1 then 2 else 5)
      else (if sign = 1#1 then 1 else 6)
    CompletesX (.fclassS rd rs1) s rd (BitVec.ofNat 64 (2 ^ k)) 4#64) ∧
  (∀ (s : State) (rd rs1 : Reg), s.csr.mstatus.fs ≠ 0#2 → let a := s.readF rs1
    let sign := a.extractLsb' 63 1; let ex := a.extractLsb' 52 11; let frac := a.extractLsb' 0 52
    let k := if ex = 0x7FF#11 then
        if frac = 0#52 then (if sign = 1#1 then 0 else 7) else if frac.getLsbD 51 then 9 else 8
      else if ex = 0#11 then
        if frac = 0#52 then (if sign = 1#1 then 3 else 4) else (if sign = 1#1 then 2 else 5)
      else (if sign = 1#1 then 1 else 6)
    CompletesX (.fclassD rd rs1) s rd (BitVec.ofNat 64 (2 ^ k)) 4#64))

/-- FEQ, FLT, FLE, FMIN and FMAX follow the order of the values, with the NaN and signed-zero rules of the spec (R570,
R571). -/
def Obligations.FpComparisonsMinimumMaximum : Prop :=
  ((∀ (s : State) (rd rs1 rs2 : Reg), s.csr.mstatus.fs ≠ 0#2 →
    let F := FpFmt.single; let a := (s.readS rs1).toNat; let b := (s.readS rs2).toNat
    let x := F.unpack a; let y := F.unpack b; let nan := x.isNaN || y.isNaN
    let snan := x.isSignaling || y.isSignaling; let bit (c : Bool) : Word := if c then 1#64 else 0#64
    CompletesXF (.feqS rd rs1 rs2) s rd (bit (!nan && F.orderKey a == F.orderKey b)) (if snan then 0b10000#5 else 0#5) ∧
    CompletesXF (.fltS rd rs1 rs2) s rd (bit (!nan && F.orderKey a < F.orderKey b)) (if nan then 0b10000#5 else 0#5) ∧
    CompletesXF (.fleS rd rs1 rs2) s rd (bit (!nan && F.orderKey a ≤ F.orderKey b)) (if nan then 0b10000#5 else 0#5)) ∧
  (∀ (s : State) (rd rs1 rs2 : Reg), s.csr.mstatus.fs ≠ 0#2 →
    let F := FpFmt.double; let a := (s.readF rs1).toNat; let b := (s.readF rs2).toNat
    let x := F.unpack a; let y := F.unpack b; let nan := x.isNaN || y.isNaN
    let snan := x.isSignaling || y.isSignaling; let bit (c : Bool) : Word := if c then 1#64 else 0#64
    CompletesXF (.feqD rd rs1 rs2) s rd (bit (!nan && F.orderKey a == F.orderKey b)) (if snan then 0b10000#5 else 0#5) ∧
    CompletesXF (.fltD rd rs1 rs2) s rd (bit (!nan && F.orderKey a < F.orderKey b)) (if nan then 0b10000#5 else 0#5) ∧
    CompletesXF (.fleD rd rs1 rs2) s rd (bit (!nan && F.orderKey a ≤ F.orderKey b)) (if nan then 0b10000#5 else 0#5))) ∧
  ((∀ (s : State) (rd rs1 rs2 : Reg), s.csr.mstatus.fs ≠ 0#2 →
    let F := FpFmt.single; let a := s.readS rs1; let b := s.readS rs2; let x := F.unpack a.toNat; let y := F.unpack b.toNat
    let flags : FFlags := if x.isSignaling || y.isSignaling then 0b10000#5 else 0#5
    let less := F.orderKey a.toNat < F.orderKey b.toNat ∨ (F.orderKey a.toNat = F.orderKey b.toNat ∧ F.signOf a.toNat = true)
    let pick (max : Prop) [Decidable max] : BitVec 32 := if x.isNaN && y.isNaN then 0x7FC00000#32 else if x.isNaN then b
      else if y.isNaN then a else if max then (if less then b else a) else (if less then a else b)
    (let r := pick False; CompletesF (.fminS rd rs1 rs2) s rd (0xFFFFFFFF#32 ++ r) flags) ∧
    (let r := pick True; CompletesF (.fmaxS rd rs1 rs2) s rd (0xFFFFFFFF#32 ++ r) flags)) ∧
  (∀ (s : State) (rd rs1 rs2 : Reg), s.csr.mstatus.fs ≠ 0#2 →
    let F := FpFmt.double; let a := s.readF rs1; let b := s.readF rs2; let x := F.unpack a.toNat; let y := F.unpack b.toNat
    let flags : FFlags := if x.isSignaling || y.isSignaling then 0b10000#5 else 0#5
    let less := F.orderKey a.toNat < F.orderKey b.toNat ∨ (F.orderKey a.toNat = F.orderKey b.toNat ∧ F.signOf a.toNat = true)
    let pick (max : Prop) [Decidable max] : BitVec 64 := if x.isNaN && y.isNaN then 0x7FF8000000000000#64 else if x.isNaN then b
      else if y.isNaN then a else if max then (if less then b else a) else (if less then a else b)
    (let r := pick False; CompletesF (.fminD rd rs1 rs2) s rd r flags) ∧
    (let r := pick True; CompletesF (.fmaxD rd rs1 rs2) s rd r flags)))

/-- NaN, infinite and zero operands, invalid operations and divisions by zero give the results and flags of the rules
(R562, R567, R568, R569). -/
def Obligations.InvalidAndDivideByZero : Prop :=
  (∀ (m : RoundingMode) (a b c : BitVec 32) (np na : Bool),
    let x := valS a; let y := valS b; let z := valS c; let nan (nv : Bool) : BitVec 32 × FFlags := (0x7FC00000#32, if nv then 0b10000#5 else 0#5)
    let zero (v : FpVal) : Prop := ∃ t e, v = .fin t 0 e; let fin (v : FpVal) : Prop := ∃ t k e, v = .fin t k e ∧ k ≠ 0
    (x.isNaN || y.isNaN → ∀ op ∈ [addS, subS, mulS, divS], op m a b = nan (x.isSignaling || y.isSignaling)) ∧
    (x.isNaN → sqrtS m a = nan x.isSignaling) ∧
    (∀ t, x = .inf t → y = .inf (!t) → addS m a b = nan true) ∧ (∀ t, x = .inf t → y = .inf t → subS m a b = nan true) ∧
    (∀ t, (x = .inf t ∧ zero y) ∨ (zero x ∧ y = .inf t) → mulS m a b = nan true ∧ fmaS m np na a b c = nan true) ∧
    (zero x → zero y → divS m a b = nan true) ∧ (∀ t u, x = .inf t → y = .inf u → divS m a b = nan true) ∧
    (∀ k e, x = .fin true k e → k ≠ 0 → sqrtS m a = nan true) ∧ (x = .inf true → sqrtS m a = nan true) ∧
    ((x.isNaN || y.isNaN || z.isNaN) = true → (¬∃ t, (x = .inf t ∧ zero y) ∨ (zero x ∧ y = .inf t)) →
      fmaS m np na a b c = nan (x.isSignaling || y.isSignaling || z.isSignaling)) ∧
    (∀ t u, x = .inf t ∨ y = .inf t → ¬x.isNaN → ¬y.isNaN → (¬∃ v, (x = .inf v ∧ zero y) ∨ (zero x ∧ y = .inf v)) →
      z = .inf u → (np != ((0x80000000#32 &&& (a ^^^ b)) != 0)) ≠ (na != u) → fmaS m np na a b c = nan true) ∧
    (fin x → zero y → divS m a b = (((a ^^^ b) &&& 0x80000000#32) ||| 0x7F800000#32, 0b01000#5)) ∧
    (∀ t, x = .inf t → zero y → divS m a b = (((a ^^^ b) &&& 0x80000000#32) ||| 0x7F800000#32, 0#5)) ∧
    (zero x → sqrtS m a = (a, 0#5)) ∧ (zero x → zero y → mulS m a b = ((a ^^^ b) &&& 0x80000000#32, 0#5)) ∧
    (let finite (v : FpVal) : Prop := ∃ t k e, v = .fin t k e
     let signed (t : Bool) : BitVec 32 := if t then 0x80000000#32 ||| 0x7F800000#32 else 0x7F800000#32; let pos := np != ((0x80000000#32 &&& (a ^^^ b)) != 0)
     (∀ t, x = .inf t → finite y → addS m a b = (a, 0#5) ∧ subS m a b = (a, 0#5)) ∧
     (∀ t, finite x → y = .inf t → addS m a b = (b, 0#5) ∧ subS m a b = (b ^^^ 0x80000000#32, 0#5)) ∧
     (∀ t, x = .inf t → y = .inf t → addS m a b = (a, 0#5)) ∧ (∀ t, x = .inf t → y = .inf (!t) → subS m a b = (a, 0#5)) ∧
     (∀ t u, (x = .inf t ∧ (y = .inf u ∨ fin y)) ∨ (fin x ∧ y = .inf u) →
       mulS m a b = (((a ^^^ b) &&& 0x80000000#32) ||| 0x7F800000#32, 0#5) ∧
       (finite z ∨ z = .inf (na != pos) → fmaS m np na a b c = (signed pos, 0#5))) ∧
     (∀ u, finite x → finite y → z = .inf u → fmaS m np na a b c = (signed (na != u), 0#5)) ∧
     (∀ t, finite x → y = .inf t → divS m a b = ((a ^^^ b) &&& 0x80000000#32, 0#5)) ∧
     (∀ t, x = .inf t → fin y → divS m a b = (((a ^^^ b) &&& 0x80000000#32) ||| 0x7F800000#32, 0#5)) ∧
     (zero x → fin y → divS m a b = ((a ^^^ b) &&& 0x80000000#32, 0#5)) ∧ (x = .inf false → sqrtS m a = (a, 0#5)) ∧
     (zero x → zero y → a = b → addS m a b = (a, 0#5)) ∧ (zero x → zero y → a ≠ b → subS m a b = (a, 0#5)))) ∧
  (∀ (m : RoundingMode) (a b c : BitVec 64) (np na : Bool),
    let x := valD a; let y := valD b; let z := valD c; let nan (nv : Bool) : BitVec 64 × FFlags := (0x7FF8000000000000#64, if nv then 0b10000#5 else 0#5)
    let zero (v : FpVal) : Prop := ∃ t e, v = .fin t 0 e; let fin (v : FpVal) : Prop := ∃ t k e, v = .fin t k e ∧ k ≠ 0
    (x.isNaN || y.isNaN → ∀ op ∈ [addD, subD, mulD, divD], op m a b = nan (x.isSignaling || y.isSignaling)) ∧
    (x.isNaN → sqrtD m a = nan x.isSignaling) ∧
    (∀ t, x = .inf t → y = .inf (!t) → addD m a b = nan true) ∧ (∀ t, x = .inf t → y = .inf t → subD m a b = nan true) ∧
    (∀ t, (x = .inf t ∧ zero y) ∨ (zero x ∧ y = .inf t) → mulD m a b = nan true ∧ fmaD m np na a b c = nan true) ∧
    (zero x → zero y → divD m a b = nan true) ∧ (∀ t u, x = .inf t → y = .inf u → divD m a b = nan true) ∧
    (∀ k e, x = .fin true k e → k ≠ 0 → sqrtD m a = nan true) ∧ (x = .inf true → sqrtD m a = nan true) ∧
    ((x.isNaN || y.isNaN || z.isNaN) = true → (¬∃ t, (x = .inf t ∧ zero y) ∨ (zero x ∧ y = .inf t)) →
      fmaD m np na a b c = nan (x.isSignaling || y.isSignaling || z.isSignaling)) ∧
    (∀ t u, x = .inf t ∨ y = .inf t → ¬x.isNaN → ¬y.isNaN → (¬∃ v, (x = .inf v ∧ zero y) ∨ (zero x ∧ y = .inf v)) →
      z = .inf u → (np != ((0x8000000000000000#64 &&& (a ^^^ b)) != 0)) ≠ (na != u) → fmaD m np na a b c = nan true) ∧
    (fin x → zero y → divD m a b = (((a ^^^ b) &&& 0x8000000000000000#64) ||| 0x7FF0000000000000#64, 0b01000#5)) ∧
    (∀ t, x = .inf t → zero y → divD m a b = (((a ^^^ b) &&& 0x8000000000000000#64) ||| 0x7FF0000000000000#64, 0#5)) ∧
    (zero x → sqrtD m a = (a, 0#5)) ∧ (zero x → zero y → mulD m a b = ((a ^^^ b) &&& 0x8000000000000000#64, 0#5)) ∧
    (let finite (v : FpVal) : Prop := ∃ t k e, v = .fin t k e
     let signed (t : Bool) : BitVec 64 := if t then 0x8000000000000000#64 ||| 0x7FF0000000000000#64 else 0x7FF0000000000000#64; let pos := np != ((0x8000000000000000#64 &&& (a ^^^ b)) != 0)
     (∀ t, x = .inf t → finite y → addD m a b = (a, 0#5) ∧ subD m a b = (a, 0#5)) ∧
     (∀ t, finite x → y = .inf t → addD m a b = (b, 0#5) ∧ subD m a b = (b ^^^ 0x8000000000000000#64, 0#5)) ∧
     (∀ t, x = .inf t → y = .inf t → addD m a b = (a, 0#5)) ∧ (∀ t, x = .inf t → y = .inf (!t) → subD m a b = (a, 0#5)) ∧
     (∀ t u, (x = .inf t ∧ (y = .inf u ∨ fin y)) ∨ (fin x ∧ y = .inf u) →
       mulD m a b = (((a ^^^ b) &&& 0x8000000000000000#64) ||| 0x7FF0000000000000#64, 0#5) ∧
       (finite z ∨ z = .inf (na != pos) → fmaD m np na a b c = (signed pos, 0#5))) ∧
     (∀ u, finite x → finite y → z = .inf u → fmaD m np na a b c = (signed (na != u), 0#5)) ∧
     (∀ t, finite x → y = .inf t → divD m a b = ((a ^^^ b) &&& 0x8000000000000000#64, 0#5)) ∧
     (∀ t, x = .inf t → fin y → divD m a b = (((a ^^^ b) &&& 0x8000000000000000#64) ||| 0x7FF0000000000000#64, 0#5)) ∧
     (zero x → fin y → divD m a b = ((a ^^^ b) &&& 0x8000000000000000#64, 0#5)) ∧ (x = .inf false → sqrtD m a = (a, 0#5)) ∧
     (zero x → zero y → a = b → addD m a b = (a, 0#5)) ∧ (zero x → zero y → a ≠ b → subD m a b = (a, 0#5))))

/-- A conversion to an integer rounds the value by the mode and saturates with NV outside the range (R572, R563). -/
def Obligations.ConversionToIntegerSaturates : Prop :=
  (∀ (m : RoundingMode) (a : BitVec 32) (lo hi : Int), lo ≤ 0 → 0 < hi →
    (∀ b, valS a = .nan b → toIntS m lo hi a = (hi, 0b10000#5)) ∧
    (∀ t, valS a = .inf t → toIntS m lo hi a = (if t then lo else hi, 0b10000#5)) ∧
    (∀ t k e, valS a = .fin t k e → let x := finValue t k e; let r := toIntS m lo hi a
      (∃ n : Int, (match m with
          | .rtz => |(n : ℚ)| ≤ |x| ∧ |x| - |(n : ℚ)| < 1 ∧ 0 ≤ (n : ℚ) * x
          | .rdn => n = ⌊x⌋
          | .rup => n = ⌈x⌉
          | .rne => |x - n| ≤ 1 / 2 ∧ (|x - n| = 1 / 2 → n % 2 = 0)
          | .rmm => |x - n| ≤ 1 / 2 ∧ (|x - n| = 1 / 2 → |x| < |(n : ℚ)|)) ∧
        r = (if n < lo then (lo, 0b10000#5) else if hi < n then (hi, 0b10000#5)
          else (n, if (n : ℚ) = x then 0#5 else 0b00001#5))))) ∧
  (∀ (m : RoundingMode) (a : BitVec 64) (lo hi : Int), lo ≤ 0 → 0 < hi →
    (∀ b, valD a = .nan b → toIntD m lo hi a = (hi, 0b10000#5)) ∧
    (∀ t, valD a = .inf t → toIntD m lo hi a = (if t then lo else hi, 0b10000#5)) ∧
    (∀ t k e, valD a = .fin t k e → let x := finValue t k e; let r := toIntD m lo hi a
      (∃ n : Int, (match m with
          | .rtz => |(n : ℚ)| ≤ |x| ∧ |x| - |(n : ℚ)| < 1 ∧ 0 ≤ (n : ℚ) * x
          | .rdn => n = ⌊x⌋
          | .rup => n = ⌈x⌉
          | .rne => |x - n| ≤ 1 / 2 ∧ (|x - n| = 1 / 2 → n % 2 = 0)
          | .rmm => |x - n| ≤ 1 / 2 ∧ (|x - n| = 1 / 2 → |x| < |(n : ℚ)|)) ∧
        r = (if n < lo then (lo, 0b10000#5) else if hi < n then (hi, 0b10000#5)
          else (n, if (n : ℚ) = x then 0#5 else 0b00001#5)))))

/-- round_F is correct rounding: the neighbour of the exact value the mode names, with OF, UF and NX as the rules say
(R560, R563, R564, R565). -/
def Obligations.RoundingPicksTheRightNeighbour : Prop :=
  ∀ (F : FpFmt) (mode : RoundingMode) (sign : Bool) (m : Nat) (e : Int), F = .single ∨ F = .double → m ≠ 0 →
    let out := roundPack F mode sign m e; let x : ℚ := finValue false m e
    let away := (mode = .rdn ∧ sign = true) ∨ (mode = .rup ∧ sign = false)
    let reaches (top : ℚ) : Prop := let under := top * (1 - 2 ^ (-(F.fbits + 1 : Int)))
      if mode = .rne ∨ mode = .rmm then (under + top) / 2 ≤ x else if away then under < x else top ≤ x
    let large := reaches (2 ^ (F.bias + 1 : Int)); let tiny := ¬reaches (2 ^ (1 - F.bias : Int))
    (out.2 &&& FFlags.of ≠ 0#5 ↔ large) ∧
    (large → out.2 = FFlags.of ||| FFlags.nx ∧ out.1 = F.withSign sign
      (if mode = .rtz ∨ (mode = .rdn ∧ sign = false) ∨ (mode = .rup ∧ sign = true) then F.infPattern - 1 else F.infPattern)) ∧
    (out.2 &&& FFlags.uf ≠ 0#5 ↔ tiny ∧ out.2 &&& FFlags.nx ≠ 0#5) ∧ out.2 &&& (FFlags.nv ||| FFlags.dz) = 0#5 ∧
    FpFmt.single.infPattern = 0x7F800000 ∧ FpFmt.double.infPattern = 0x7FF0000000000000 ∧
    (out.2 &&& FFlags.of = 0#5 →
    ∃ k j, F.unpack out.1 = .fin sign k j ∧
      (let r : ℚ := finValue false k j
       (out.2 &&& FFlags.nx = 0#5 ↔ r = x) ∧
       (∀ p n i, F.unpack p = .fin false n i → ¬(min x r < finValue false n i ∧ finValue false n i < max x r)) ∧
       (mode = .rtz → r ≤ x) ∧ (mode = .rdn → if sign then x ≤ r else r ≤ x) ∧
       (mode = .rup → if sign then r ≤ x else x ≤ r) ∧
       (mode = .rne ∨ mode = .rmm → ∀ p n i, F.unpack p = .fin false n i → |r - x| ≤ |finValue false n i - x|) ∧
       (∀ p n i, F.unpack p = .fin false n i → finValue false n i ≠ r → |r - x| = |finValue false n i - x| →
         (mode = .rne → out.1 % 2 = 0) ∧ (mode = .rmm → x < r))))

/-- Add, subtract, multiply, fused multiply-add and conversions to a format round the exact result once (R560, R569,
R573, R576, R583, R587, R588, R589, R667, R668). -/
def Obligations.ArithmeticRoundsTheExactResultOnce : Prop :=
  (∀ (m : RoundingMode) (a b c : BitVec 32) (t u v : Bool) (j k l : Nat) (d e f : Int),
    valS a = .fin t j d → valS b = .fin u k e → valS c = .fin v l f →
    let x := finValue t j d; let y := finValue u k e; let z := finValue v l f
    let rounds (q : ℚ) (r : BitVec 32 × FFlags) : Prop := q ≠ 0 →
      ∃ n i, |q| = finValue false n i ∧ r = bitsS (roundPack .single m (decide (q < 0)) n i)
    rounds (x + y) (addS m a b) ∧ rounds (x - y) (subS m a b) ∧ rounds (x * y) (mulS m a b) ∧
    (∀ np na : Bool, rounds ((if np then -(x * y) else x * y) + (if na then -z else z)) (fmaS m np na a b c)) ∧
    (let zero (t : Bool) : BitVec 32 × FFlags := (if t then BitVec.intMin 32 else 0, 0#5)
     (x + y = 0 → t ≠ u → addS m a b = zero (m = .rdn)) ∧ (x - y = 0 → t = u → subS m a b = zero (m = .rdn)) ∧
     (x * y = 0 → mulS m a b = zero (t != u)) ∧
     (∀ np na : Bool, (if np then -(x * y) else x * y) + (if na then -z else z) = 0 →
       let pos := np != (t != u); fmaS m np na a b c = zero (if pos = (na != v) then pos else m = .rdn))) ∧
    (∀ n : Int, n ≠ 0 → ofIntS m n = bitsS (roundPack .single m (decide (n < 0)) n.natAbs 0)) ∧ ofIntS m 0 = (0, 0#5)) ∧
  (∀ (m : RoundingMode) (a b c : BitVec 64) (t u v : Bool) (j k l : Nat) (d e f : Int),
    valD a = .fin t j d → valD b = .fin u k e → valD c = .fin v l f →
    let x := finValue t j d; let y := finValue u k e; let z := finValue v l f
    let rounds (q : ℚ) (r : BitVec 64 × FFlags) : Prop := q ≠ 0 →
      ∃ n i, |q| = finValue false n i ∧ r = bitsD (roundPack .double m (decide (q < 0)) n i)
    rounds (x + y) (addD m a b) ∧ rounds (x - y) (subD m a b) ∧ rounds (x * y) (mulD m a b) ∧
    (∀ np na : Bool, rounds ((if np then -(x * y) else x * y) + (if na then -z else z)) (fmaD m np na a b c)) ∧
    (let zero (t : Bool) : BitVec 64 × FFlags := (if t then BitVec.intMin 64 else 0, 0#5)
     (x + y = 0 → t ≠ u → addD m a b = zero (m = .rdn)) ∧ (x - y = 0 → t = u → subD m a b = zero (m = .rdn)) ∧
     (x * y = 0 → mulD m a b = zero (t != u)) ∧
     (∀ np na : Bool, (if np then -(x * y) else x * y) + (if na then -z else z) = 0 →
       let pos := np != (t != u); fmaD m np na a b c = zero (if pos = (na != v) then pos else m = .rdn))) ∧
    (∀ n : Int, n ≠ 0 → ofIntD m n = bitsD (roundPack .double m (decide (n < 0)) n.natAbs 0)) ∧ ofIntD m 0 = (0, 0#5)) ∧
  (∀ (m : RoundingMode) (a : BitVec 64),
    (∀ b, valD a = .nan b → doubleToSingle m a = (0x7FC00000#32, if b then 0b10000#5 else 0#5)) ∧
    (∀ t, valD a = .inf t → doubleToSingle m a = (if t then 0xFF800000#32 else 0x7F800000#32, 0#5)) ∧
    (∀ t e, valD a = .fin t 0 e → doubleToSingle m a = (if t then 0x80000000#32 else 0#32, 0#5)) ∧
    (∀ t k e, valD a = .fin t k e → k ≠ 0 → doubleToSingle m a = bitsS (roundPack .single m t k e))) ∧
  (∀ (m : RoundingMode) (a : BitVec 32),
    (∀ b, valS a = .nan b → singleToDouble m a = (0x7FF8000000000000#64, if b then 0b10000#5 else 0#5)) ∧
    (∀ t, valS a = .inf t → singleToDouble m a = (if t then 0xFFF0000000000000#64 else 0x7FF0000000000000#64, 0#5)) ∧
    (∀ t k e, valS a = .fin t k e → (singleToDouble m a).2 = 0#5 ∧
      ∃ n i, valD (singleToDouble m a).1 = .fin t n i ∧ finValue t n i = finValue t k e))

/-- Division and square root round a value that agrees with the exact one down to bits that cannot matter (R560, R564,
R590, R591, R660, R661). -/
def Obligations.QuotientAndRootAreCutBelowRounding : Prop :=
  (∀ (m : RoundingMode) (a b : BitVec 32) (t u : Bool) (j k : Nat) (d e : Int),
    valS a = .fin t j d → valS b = .fin u k e → j ≠ 0 →
    (k ≠ 0 → ∃ n i, 2 ^ (23 + 4) ≤ n ∧ divS m a b = bitsS (roundPack .single m (t != u) n i) ∧
      (let q := finValue false j d / finValue false k e
       if n % 2 = 0 then finValue false n i = q else finValue false (n - 1) i < q ∧ q < finValue false (n + 1) i)) ∧
    (t = false → ∃ n i, 2 ^ (23 + 3) ≤ n ∧ sqrtS m a = bitsS (roundPack .single m false n i) ∧
      (let q := finValue false j d
       if n % 2 = 0 then finValue false n i ^ 2 = q
       else finValue false (n - 1) i ^ 2 < q ∧ q < finValue false (n + 1) i ^ 2))) ∧
  (∀ (m : RoundingMode) (a b : BitVec 64) (t u : Bool) (j k : Nat) (d e : Int),
    valD a = .fin t j d → valD b = .fin u k e → j ≠ 0 →
    (k ≠ 0 → ∃ n i, 2 ^ (52 + 4) ≤ n ∧ divD m a b = bitsD (roundPack .double m (t != u) n i) ∧
      (let q := finValue false j d / finValue false k e
       if n % 2 = 0 then finValue false n i = q else finValue false (n - 1) i < q ∧ q < finValue false (n + 1) i)) ∧
    (t = false → ∃ n i, 2 ^ (52 + 3) ≤ n ∧ sqrtD m a = bitsD (roundPack .double m false n i) ∧
      (let q := finValue false j d
       if n % 2 = 0 then finValue false n i ^ 2 = q
       else finValue false (n - 1) i ^ 2 < q ∧ q < finValue false (n + 1) i ^ 2)))

/-- FP instructions are illegal while FS is Off or with an invalid rounding mode; rm 111 means frm (R563, R712). -/
def Obligations.FpLegality : Prop :=
  (∀ (s : State), s.csr.mstatus.fs = 0#2 →
    (∀ i : Instr, isFp i = true → exec i s = .next (s.enterTrap (.exception .illegalInstruction) s.pc (encode i).raw)) ∧
    (∀ (rd rs1 u : Reg) (csr : BitVec 12), csr.toNat ∈ [1, 2, 3] →
      ∀ i ∈ [Instr.csrrw rd csr rs1, .csrrs rd csr rs1, .csrrc rd csr rs1, .csrrwi rd csr u, .csrrsi rd csr u, .csrrci rd csr u],
        exec i s = .next (s.enterTrap (.exception .illegalInstruction) s.pc (encode i).raw))) ∧
  (∀ (s : State) (rm : BitVec 3), let code := if rm = 7#3 then s.csr.frm else rm
    s.roundingMode rm =
      (if code = 0#3 then some .rne else if code = 1#3 then some .rtz else if code = 2#3 then some .rdn
       else if code = 3#3 then some .rup else if code = 4#3 then some .rmm else none) ∧
    (∀ i : Instr, rmOf i = some rm → s.csr.mstatus.fs ≠ 0#2 → 5 ≤ code.toNat →
      exec i s = .next (s.enterTrap (.exception .illegalInstruction) s.pc (encode i).raw)))

/-- ECALL and EBREAK take their exceptions; MRET and SRET restore enable, mode and pc or are illegal (R700, R701,
R702, R703, R720, R775, R821, R822). -/
def Obligations.CallsBreakpointsAndReturns : Prop :=
  (∀ s : State,
    exec .ecall s = .next (s.enterTrap (.exception (match s.priv with | .U => .ecallFromU | .S => .ecallFromS | .M => .ecallFromM))
      s.pc 0#64) ∧
    exec .ebreak s = .next (s.enterTrap (.exception .breakpoint) s.pc s.pc) ∧
    exec .cEbreak s = .next (s.enterTrap (.exception .breakpoint) s.pc s.pc) ∧
    Exc.ecallFromU.code = 8 ∧ Exc.ecallFromS.code = 9 ∧ Exc.ecallFromM.code = 11 ∧ Exc.breakpoint.code = 3) ∧
  (∀ s : State, let m := s.csr.mstatus
    let back (m' : Mstatus) (p : Priv) (target : Word) : Result :=
      .next { s with
        csr := { s.csr with mstatus := m', minstret := s.csr.minstret + 1#64 }, priv := p, pc := target, atBoundary := true }
    (s.priv = .M → exec .mret s =
      back { m with mie := m.mpie, mpie := true, mpp := .U, mprv := if m.mpp = .M then m.mprv else false } m.mpp s.csr.mepc) ∧
    (s.priv = .M ∨ (s.priv = .S ∧ m.tsr = false) → exec .sret s =
      back { m with sie := m.spie, spie := true, spp := false, mprv := false } (if m.spp then .S else .U) s.csr.sepc) ∧
    (s.priv ≠ .M → exec .mret s = .next (s.enterTrap (.exception .illegalInstruction) s.pc 0x30200073#64)) ∧
    (s.priv = .U ∨ (s.priv = .S ∧ m.tsr = true) →
      exec .sret s = .next (s.enterTrap (.exception .illegalInstruction) s.pc 0x10200073#64)))

/-- FENCE, FENCE.I, WFI and SFENCE.VMA complete or are illegal; after FENCE.I a fetch shows the bytes as they are
(R161, R202, R264, R265, R704, R705, R706, R707, R720). -/
def Obligations.FencesAndWait : Prop :=
  (∀ (s : State) (fm pred succ : BitVec 4) (rs1 rs2 rd : Reg) (imm : BitVec 12), let m := s.csr.mstatus
    let illegal (i : Instr) : Result := .next (s.enterTrap (.exception .illegalInstruction) s.pc (encode i).raw)
    exec (.fence fm pred succ rs1 rd) s = .next (s.retireTo (s.pc + 4#64)) ∧
    exec (.fenceI imm rs1 rd) s = .next (State.retireTo { s with fetchLog := [] } (s.pc + 4#64)) ∧
    (s.priv = .M ∨ (s.priv = .S ∧ m.tw = false) →
      exec .wfi s = .next { s.retireTo (s.pc + 4#64) with waiting := s.cfg.wfiWaits }) ∧
    (s.priv = .U ∨ (s.priv = .S ∧ m.tw = true) → exec .wfi s = illegal .wfi) ∧
    (s.priv = .M ∨ (s.priv = .S ∧ m.tvm = false) → exec (.sfenceVma rs1 rs2) s =
      .next ((s.flushTlbs (if rs1 = 0#5 then none else some (s.readX rs1))
        (if rs2 = 0#5 then none else some ((s.readX rs2).extractLsb' 0 16))).retireTo (s.pc + 4#64))) ∧
    (s.priv = .U ∨ (s.priv = .S ∧ m.tvm = true) → exec (.sfenceVma rs1 rs2) s = illegal (.sfenceVma rs1 rs2))) ∧
  (∀ (s : State) (va : Word), s.fetchLog = [] → (satpMode s.csr.satp = 0#4 ∨ s.priv = .M) →
    State.inRam s.cfg va.toNat 2 = true →
    s.fetch16 va = (.ok (s.byteAt (va.toNat + 1) ++ s.byteAt va.toNat), s))

/-- SFENCE.VMA removes exactly the TLB entries its operands select, by address and by ASID (R244, R250, R251). -/
def Obligations.SfenceRemovesWhatItNames : Prop :=
  ∀ (s : State) (va : Option Word) (asid : Option (BitVec 16)) (e : TlbEntry),
    let pageOf (a : Word) : Prop := (a.toInt < 2 ^ 38 ∧ -2 ^ 38 ≤ a.toInt) ∧
      (a.toNat / 2 ^ 12 % 2 ^ 27) / 2 ^ e.size.vpnBits * 2 ^ e.size.vpnBits = e.vpn.toNat
    let selected : Prop := (∀ a, va = some a → pageOf a) ∧ (∀ n, asid = some n → e.g = false ∧ e.asid = n)
    let t := s.flushTlbs va asid
    (e ∈ t.itlb ↔ e ∈ s.itlb ∧ ¬selected) ∧ (e ∈ t.dtlb ↔ e ∈ s.dtlb ∧ ¬selected) ∧
    (va = none → asid = none → t.itlb = [] ∧ t.dtlb = [] ∧ t.walkLog = []) ∧
    { t with itlb := s.itlb, dtlb := s.dtlb, walkLog := s.walkLog } = s

/-- The six CSR instructions complete where R711 allows the access: rd gets the old value, the CSR the new one (R74,
R112, R711, R713, R714, R715, R716, R717, R718, R719). -/
def Obligations.CsrInstructionResults : Prop :=
  ∀ (s : State) (rd rs1 : Reg) (csr : BitVec 12) (u : BitVec 5) (c : CsrName), let n := csr.toNat
    let allowed (writes : Bool) : Prop := csrOf csr = some c ∧ n / 256 % 4 ≤ s.priv.code.toNat ∧
      (writes = true → n / 1024 ≠ 3) ∧ (n ∈ [1, 2, 3] → s.csr.mstatus.fs ≠ 0#2) ∧
      (n = 0x180 → s.priv = .S → s.csr.mstatus.tvm = false) ∧
      (0xC00 ≤ n → n < 0xC20 → (s.priv ≠ .M → s.csr.mcounteren.getLsbD (n % 32) = true) ∧
        (s.priv = .U → s.csr.scounteren.getLsbD (n % 32) = true))
    let src := s.readX rs1; let z : Word := u.setWidth 64; let old := s.csrBase c
    let t := (s.writeX rd (s.readCsr c)).retireTo (s.pc + 4#64)
    (allowed true →
      exec (.csrrw rd csr rs1) s = .next (t.writeCsr c src) ∧ exec (.csrrwi rd csr u) s = .next (t.writeCsr c z) ∧
      (rs1 ≠ 0#5 → exec (.csrrs rd csr rs1) s = .next (t.writeCsr c (old ||| src)) ∧
        exec (.csrrc rd csr rs1) s = .next (t.writeCsr c (old &&& ~~~src))) ∧
      (u ≠ 0#5 → exec (.csrrsi rd csr u) s = .next (t.writeCsr c (old ||| z)) ∧
        exec (.csrrci rd csr u) s = .next (t.writeCsr c (old &&& ~~~z)))) ∧
    (allowed false →
      exec (.csrrs rd csr 0#5) s = .next t ∧ exec (.csrrc rd csr 0#5) s = .next t ∧
      exec (.csrrsi rd csr 0#5) s = .next t ∧ exec (.csrrci rd csr 0#5) s = .next t) ∧
    (c ≠ .mip → old = s.readCsr c) ∧
    (c = .mip → old = (s.readCsr .mip &&& ~~~0x200#64) ||| (if s.csr.seip then 0x200#64 else 0#64))

/-- A CSR access is illegal exactly by conditions (a) to (f), and the illegal instruction changes nothing (R711). -/
def Obligations.CsrAccessCheck : Prop :=
  (∀ (s : State) (a : BitVec 12) (writes : Bool), let n := a.toNat; let k := n % 32
    let table := [0x001, 0x002, 0x003, 0x100, 0x104, 0x105, 0x106, 0x140, 0x141, 0x142, 0x143, 0x144, 0x180, 0x320] ++
      List.range' 0x300 7 ++ List.range' 0x323 29 ++ List.range' 0x340 5 ++ List.range' 0x3A0 8 2 ++ List.range' 0x3B0 64 ++
      [0xB00] ++ List.range' 0xB02 30 ++ List.range' 0xC00 32 ++ List.range' 0xF11 5
    s.csrAccess a writes = none ↔
      n ∉ table ∨
      s.priv.code.toNat < n / 256 % 4 ∨
      (writes = true ∧ n / 1024 = 3) ∨
      (n ∈ [1, 2, 3] ∧ s.csr.mstatus.fs = 0#2) ∨
      (n = 0x180 ∧ s.priv = .S ∧ s.csr.mstatus.tvm = true) ∨
      (0xC00 ≤ n ∧ n < 0xC20 ∧
        ((s.priv = .S ∧ s.csr.mcounteren.getLsbD k = false) ∨
         (s.priv = .U ∧ (s.csr.mcounteren.getLsbD k = false ∨ s.csr.scounteren.getLsbD k = false))))) ∧
  (∀ (s : State) (rd rs1 : Reg) (csr : BitVec 12) (u : BitVec 5),
    let illegal (i : Instr) : Prop := exec i s = .next (s.enterTrap (.exception .illegalInstruction) s.pc (encode i).raw)
    (s.csrAccess csr true = none → illegal (.csrrw rd csr rs1) ∧ illegal (.csrrwi rd csr u) ∧
      (rs1 ≠ 0#5 → illegal (.csrrs rd csr rs1) ∧ illegal (.csrrc rd csr rs1)) ∧
      (u ≠ 0#5 → illegal (.csrrsi rd csr u) ∧ illegal (.csrrci rd csr u))) ∧
    (s.csrAccess csr false = none → illegal (.csrrs rd csr 0#5) ∧ illegal (.csrrc rd csr 0#5) ∧
      illegal (.csrrsi rd csr 0#5) ∧ illegal (.csrrci rd csr 0#5)))

/-- mstatus and sstatus read back their writable bits, with the constants and SD computed (R60, R61). -/
def Obligations.StatusRegistersReadTheirWrites : Prop :=
  ∀ (s : State) (v : Word),
    let sd (fs : BitVec 2) : Word := if fs = 3#2 then 0x8000000000000000#64 else 0#64
    let writable := if v.extractLsb' 11 2 = 2#2 then 0x7E61AA#64 else 0x7E79AA#64
    let old := s.readCsr .mstatus
    (s.writeCsr .mstatus v).readCsr .mstatus =
      ((v &&& writable) ||| (old &&& (0x7E79AA#64 &&& ~~~writable)) ||| 0xA00000000#64 ||| sd (v.extractLsb' 13 2)) ∧
    s.readCsr .sstatus = old &&& 0x80000003000DE762#64 ∧
    (s.writeCsr .sstatus v).readCsr .mstatus =
      ((v &&& 0xC6122#64) ||| (old &&& 0x7FFFFFFFFFF39EDD#64) ||| sd (v.extractLsb' 13 2)) ∧
    csrOf 0x100#12 = some .sstatus ∧ csrOf 0x300#12 = some .mstatus

/-- Each other CSR reads back what its rule lets through and its write changes nothing else; views read as ruled (R49,
R50, R51, R71, R73, R74, R75, R76, R80, R84, R86, R110). -/
def Obligations.OtherCsrsReadTheirWrites : Prop :=
  (∀ (s : State) (v : Word), let b (x : Bool) (k : Nat) : Word := if x then BitVec.ofNat 64 (2 ^ k) else 0#64
    (s.writeCsr .medeleg v).readCsr .medeleg = v &&& 0xB3FF#64 ∧
    (s.writeCsr .mideleg v).readCsr .mideleg = v &&& 0x222#64 ∧
    (s.writeCsr .mie v).readCsr .mie = v &&& 0xAAA#64 ∧
    s.readCsr .sie = s.csr.mie &&& s.csr.mideleg ∧
    (let d := s.csr.mideleg &&& 0x222#64
     s.writeCsr .sie v = { s with csr := { s.csr with mie := (s.csr.mie &&& ~~~d) ||| (v &&& d) } }) ∧
    s.writeCsr .medeleg v = { s with csr := { s.csr with medeleg := v &&& 0xB3FF#64 } } ∧
    s.writeCsr .mideleg v = { s with csr := { s.csr with mideleg := v &&& 0x222#64 } } ∧
    s.writeCsr .mie v = { s with csr := { s.csr with mie := v &&& 0xAAA#64 } } ∧
    (∀ c ∈ [CsrName.mstatus, .sstatus], let t := s.writeCsr c v
      { t with csr := { t.csr with mstatus := s.csr.mstatus } } = s) ∧
    s.readCsr .mip = (b s.csr.ssip 1 ||| b s.lines.msip 3 ||| b s.csr.stip 5 ||| b s.lines.mtip 7 |||
      b (s.csr.seip || s.lines.seip) 9) ∧
    s.writeCsr .mip v =
      { s with csr := { s.csr with ssip := v.getLsbD 1, stip := v.getLsbD 5, seip := v.getLsbD 9 } } ∧
    s.readCsr .sip = s.readCsr .mip &&& s.csr.mideleg ∧
    s.writeCsr .sip v = (if s.csr.mideleg.getLsbD 1 then { s with csr := { s.csr with ssip := v.getLsbD 1 } } else s)) ∧
  (∀ (s : State) (v : Word),
    (∀ c ∈ [CsrName.mtvec, .stvec], (s.writeCsr c v).readCsr c = if v.toNat % 4 ≤ 1 then v else s.readCsr c) ∧
    (∀ c ∈ [CsrName.mepc, .sepc], (s.writeCsr c v).readCsr c = BitVec.ofNat 64 (v.toNat / 2 * 2)) ∧
    (∀ c ∈ [CsrName.mscratch, .sscratch, .mcause, .scause, .mtval, .stval, .mcycle, .minstret],
      (s.writeCsr c v).readCsr c = v) ∧
    (∀ c ∈ [CsrName.mcounteren, .scounteren], (s.writeCsr c v).readCsr c = BitVec.ofNat 64 (v.toNat % 2 ^ 32)) ∧
    s.writeCsr .mtvec v = (if v.toNat % 4 ≤ 1 then { s with csr := { s.csr with mtvec := v } } else s) ∧
    s.writeCsr .stvec v = (if v.toNat % 4 ≤ 1 then { s with csr := { s.csr with stvec := v } } else s) ∧
    s.writeCsr .mepc v = { s with csr := { s.csr with mepc := BitVec.ofNat 64 (v.toNat / 2 * 2) } } ∧
    s.writeCsr .sepc v = { s with csr := { s.csr with sepc := BitVec.ofNat 64 (v.toNat / 2 * 2) } } ∧
    s.writeCsr .mscratch v = { s with csr := { s.csr with mscratch := v } } ∧
    s.writeCsr .sscratch v = { s with csr := { s.csr with sscratch := v } } ∧
    s.writeCsr .mcause v = { s with csr := { s.csr with mcause := v } } ∧
    s.writeCsr .scause v = { s with csr := { s.csr with scause := v } } ∧
    s.writeCsr .mtval v = { s with csr := { s.csr with mtval := v } } ∧
    s.writeCsr .stval v = { s with csr := { s.csr with stval := v } } ∧
    s.writeCsr .mcycle v = { s with csr := { s.csr with mcycle := v } } ∧
    s.writeCsr .minstret v = { s with csr := { s.csr with minstret := v } } ∧
    s.writeCsr .mcounteren v = { s with csr := { s.csr with mcounteren := BitVec.ofNat 32 v.toNat } } ∧
    s.writeCsr .scounteren v = { s with csr := { s.csr with scounteren := BitVec.ofNat 32 v.toNat } } ∧
    (∀ c ∈ [CsrName.cycle, .instret, .time], s.writeCsr c v = s) ∧
    s.readCsr .cycle = s.readCsr .mcycle ∧ s.readCsr .instret = s.readCsr .minstret ∧ s.readCsr .time = s.clint.mtime ∧
    s.readCsr .misa = 0x800000000014112D#64 ∧
    (∀ c ∈ [CsrName.mvendorid, .marchid, .mimpid, .mhartid, .mconfigptr, .mcountinhibit], s.readCsr c = 0#64 ∧ s.writeCsr c v = s) ∧
    s.writeCsr .misa v = s ∧
    (∀ n, ∀ c ∈ [CsrName.mhpmevent n, .mhpmcounter n, .hpmcounter n, .pmpcfg n, .pmpaddr n],
      s.readCsr c = 0#64 ∧ s.writeCsr c v = s)) ∧
  (∀ (s : State) (v : Word), let dirty (c : Csrs) : Csrs := { c with mstatus := { c.mstatus with fs := 3#2 } }
    s.readCsr .fflags = BitVec.ofNat 64 s.csr.fflags.toNat ∧ s.readCsr .frm = BitVec.ofNat 64 s.csr.frm.toNat ∧
    s.readCsr .fcsr = BitVec.ofNat 64 (s.csr.frm.toNat * 32 + s.csr.fflags.toNat) ∧
    s.writeCsr .fflags v = { s with csr := dirty { s.csr with fflags := BitVec.ofNat 5 v.toNat } } ∧
    s.writeCsr .frm v = { s with csr := dirty { s.csr with frm := BitVec.ofNat 3 v.toNat } } ∧
    s.writeCsr .fcsr v =
      { s with csr := dirty { s.csr with fflags := BitVec.ofNat 5 v.toNat, frm := BitVec.ofNat 3 (v.toNat / 32) } })

/-- A satp write with a new MODE or ASID empties both TLBs; with a new PPN alone it flushes nothing (R90, R91). What a
write of a new PPN alone leaves is log 20. -/
def Obligations.SatpWrites : Prop :=
  ∀ (s : State) (v : Word), let mode := v.toNat / 2 ^ 60; let t := s.writeCsr .satp v
    (mode ≠ 0 → mode ≠ 8 → t = s) ∧
    (mode = 0 ∨ mode = 8 → t.csr = { s.csr with satp := v } ∧
      (if v.toNat / 2 ^ 44 = s.csr.satp.toNat / 2 ^ 44 then t.itlb = s.itlb ∧ t.dtlb = s.dtlb else t.itlb = [] ∧ t.dtlb = []))

/-- What taking a trap does: target by delegation, registers saved, enables and mode, vector, reservation (R813, R822,
R830, R831, R832, R833). That a trap entry leaves no boundary (atBoundary) is R813 as log 7 reads it (DEDUCED). -/
def Obligations.TrapEntry : Prop :=
  ∀ (s : State) (c : TrapCause) (epc tval : Word),
    let m := s.csr.mstatus; let pair : Bool × Nat := match c with | .exception e => (false, e.code) | .interrupt i => (true, i.code)
    let irq := pair.1; let code := pair.2
    let toS := s.priv ≠ .M ∧ (if irq then s.csr.mideleg else s.csr.medeleg).getLsbD code = true
    let cause := BitVec.ofNat 64 ((if irq then 2 ^ 63 else 0) + code); let saved := BitVec.ofNat 64 (epc.toNat / 2 * 2)
    let vector (tvec : Word) : Word :=
      BitVec.ofNat 64 (tvec.toNat / 4 * 4 + if irq = true ∧ tvec.toNat % 4 = 1 then 4 * code else 0)
    (toS → s.enterTrap c epc tval = { s with
      csr := { s.csr with
        sepc := saved, scause := cause, stval := tval,
        mstatus := { m with spie := m.sie, sie := false, spp := decide (s.priv = .S) } },
      priv := .S, pc := vector s.csr.stvec, resv := none, atBoundary := false }) ∧
    (¬toS → s.enterTrap c epc tval = { s with
      csr := { s.csr with
        mepc := saved, mcause := cause, mtval := tval, mstatus := { m with mpie := m.mie, mie := false, mpp := s.priv } },
      priv := .M, pc := vector s.csr.mtvec, resv := none, atBoundary := false })

/-- Every instruction either retires or enters one trap from the state before it: traps are precise, none is lost
(R19, R825, R830, R832, R835, R836). That the state is wholly unchanged before the entry, A and D bits, TLB fills and
device reads discarded, is log 16 (DEDUCED from R19, R206, R830 and R835; unsafe). -/
def Obligations.ExceptionsArePrecise : Prop :=
  ∀ (i : Instr) (s : State),
    (∃ t, exec i s = .next t ∧ t.atBoundary = true) ∨
    (∃ e v, exec i s = .next (s.enterTrap (.exception e) s.pc v))

/-- The mode changes only at trap entry and at MRET and SRET; no other instruction and no CSR write changes it (R801,
R813, R825, R830). That an interrupt entry is a step of its own is log 30 (DESIGN CHOICE). -/
def Obligations.ModeChangesOnlyByTrapsAndReturns : Prop :=
  (∀ (i : Instr) (s t : State), exec i s = .next t → t.atBoundary = true → i ≠ .mret → i ≠ .sret → t.priv = s.priv) ∧
  (∀ (s : State) (c : CsrName) (v : Word), (s.writeCsr c v).priv = s.priv) ∧
  (∀ s t : State, step s = .next t → t.priv ≠ s.priv → let f := State.fetchInstr { s.tick with waiting := false }
    (∃ i, s.interruptNow = some i ∧
      t = State.enterTrap { s.tick with waiting := false } (.interrupt i) s.tick.pc 0#64 ∧ s.tick.priv = s.priv) ∨
    (f.2.priv = s.priv ∧
      ((∃ e v, f.1 = .error (e, v) ∧ t = (f.2.enterTrap (.exception e) f.2.pc v).endStep) ∨
       (∃ c e v, f.1 = .ok c ∧ t = (f.2.enterTrap (.exception e) f.2.pc v).endStep) ∨
       (∃ c i u, f.1 = .ok c ∧ decodeCode c = .ok i ∧ (i = .mret ∨ i = .sret) ∧ exec i f.2 = .next u ∧
          u.atBoundary = true ∧ t = u.endStep))))

/-- Of the CSRs, a retiring U-mode instruction changes only FP state and minstret; an S-mode one keeps M-mode state
but minstret, MPRV (SRET) and the S-mode views (R61, R75, R76, R711, R720, R800). -/
def Obligations.LowerModesAreConfined : Prop :=
  (∀ (i : Instr) (s t : State), s.priv = .U → exec i s = .next t → t.atBoundary = true →
    t.priv = .U ∧ t.lines = s.lines ∧ t.cfg = s.cfg ∧
    t.csr = { s.csr with
      fflags := t.csr.fflags, frm := t.csr.frm, minstret := s.csr.minstret + 1#64,
      mstatus := { s.csr.mstatus with fs := t.csr.mstatus.fs } }) ∧
  (∀ (i : Instr) (s t : State), s.priv = .S → exec i s = .next t → t.atBoundary = true →
    let c := s.csr; let d := t.csr
    t.priv ≠ .M ∧ d.medeleg = c.medeleg ∧ d.mideleg = c.mideleg ∧ d.mtvec = c.mtvec ∧ d.mscratch = c.mscratch ∧
    d.mepc = c.mepc ∧ d.mcause = c.mcause ∧ d.mtval = c.mtval ∧ d.mcounteren = c.mcounteren ∧ d.mcycle = c.mcycle ∧
    d.minstret = c.minstret + 1#64 ∧ d.mie &&& ~~~c.mideleg = c.mie &&& ~~~c.mideleg ∧ d.stip = c.stip ∧ d.seip = c.seip ∧
    (c.mideleg.getLsbD 1 = false → d.ssip = c.ssip) ∧
    d.mstatus.mie = c.mstatus.mie ∧ d.mstatus.mpie = c.mstatus.mpie ∧ d.mstatus.mpp = c.mstatus.mpp ∧
    d.mstatus.tvm = c.mstatus.tvm ∧ d.mstatus.tw = c.mstatus.tw ∧ d.mstatus.tsr = c.mstatus.tsr ∧
    (i ≠ .sret → d.mstatus.mprv = c.mstatus.mprv))

/-- The interrupt taken is the first enabled one, M targets first; only at a boundary or out of a wait (R704, R811,
R813, R814, R826). The boundary clauses are R813 as log 7 reads it (DEDUCED). -/
def Obligations.InterruptChoiceAndBoundaries : Prop :=
  (∀ s : State, let m := s.csr.mstatus
    let pend (i : Irq) : Prop := (s.readCsr .mip &&& s.readCsr .mie).getLsbD i.code = true
    let deleg (i : Irq) : Prop := s.csr.mideleg.getLsbD i.code = true
    let enabled (i : Irq) : Prop := pend i ∧
      ((¬deleg i ∧ (s.priv ≠ .M ∨ m.mie = true)) ∨ (deleg i ∧ (s.priv = .U ∨ (s.priv = .S ∧ m.sie = true))))
    let place (i : Irq) : Nat :=
      (match i with | .mei => 0 | .msi => 1 | .mti => 2 | .sei => 3 | .ssi => 4 | .sti => 5) +
        if s.csr.mideleg.getLsbD i.code then 6 else 0
    (∀ i, s.pendingIrq = some i ↔ enabled i ∧ ∀ j, enabled j → j ≠ i → place i < place j) ∧
    (s.pendingIrq = none ↔ ∀ i, ¬enabled i)) ∧
  (∀ (s : State),
    (∀ i, s.interruptNow = some i ↔ (s.atBoundary = true ∨ s.waiting = true) ∧ s.pendingIrq = some i) ∧
    (∀ (u : State) c epc tval, u.waiting = false → (State.enterTrap u c epc tval).interruptNow = none) ∧
    (s.priv = .M → s.csr.mstatus.mie = false → s.interruptNow = none))

/-- mcycle and mtime advance together, by 1 plus a free number (log 5); CLINT registers read back and drive the lines
(R110, R810, R812, R850, R960, R985). When a new line shows is log 6, that cycles may pass at the end of a step log 44
(both DEDUCED). -/
def Obligations.ClocksAndClint : Prop :=
  (∀ s : State, let n := 1 + Config.extraCycles s.draws
    s.tick.csr = { s.csr with mcycle := BitVec.ofNat 64 (s.csr.mcycle.toNat + n) } ∧
    s.tick.clint = { s.clint with mtime := BitVec.ofNat 64 (s.clint.mtime.toNat + n) } ∧
    s.tick.pc = s.pc ∧ s.tick.priv = s.priv ∧ s.tick.x = s.x ∧ s.tick.f = s.f ∧ s.tick.resv = s.resv ∧
    (let late := Config.extraCycles s.draws; let t := s.endStep
     t.csr = { s.csr with mcycle := BitVec.ofNat 64 (s.csr.mcycle.toNat + late) } ∧
     t.clint = { s.clint with mtime := BitVec.ofNat 64 (s.clint.mtime.toNat + late) } ∧
     t.pc = s.pc ∧ t.priv = s.priv ∧ t.x = s.x ∧ t.f = s.f ∧ t.resv = s.resv ∧ t.atBoundary = s.atBoundary)) ∧
  (∀ (c : Clint) (v free : Word) (s : State),
    c.write 0x4000 8 v = { c with mtimecmp := v } ∧ c.write 0xBFF8 8 v = { c with mtime := v } ∧
    c.write 0 4 v = { c with msip := v.getLsbD 0 } ∧
    c.read free 0x4000 8 = c.mtimecmp ∧ c.read free 0xBFF8 8 = c.mtime ∧
    c.read free 0 4 = (if c.msip then 1#64 else 0#64) ∧
    s.drivenLines = ⟨decide (s.clint.mtimecmp.toNat ≤ s.clint.mtime.toNat), s.clint.msip, s.plic.output⟩ ∧
    (s.lineLag = 0 → s.latchLines.lines = s.drivenLines) ∧
    (s.tick.lines = s.lines ∨ s.tick.lines = s.tick.drivenLines) ∧
    (s.lineLag ≤ 1 → s.tick.drivenLines = s.drivenLines → s.tick.lines = s.drivenLines) ∧
    (s.endStep.lines = s.lines ∨ s.endStep.lines = s.endStep.drivenLines) ∧
    (s.lineLag = 0 → s.endStep.drivenLines = s.drivenLines → s.endStep.lines = s.drivenLines))

/-- A PLIC claim gives the pending enabled source of highest priority above the threshold, lowest id first (R851). -/
def Obligations.PlicClaimsTheBestSource : Prop :=
  ∀ (p : Plic) (src : Nat), src < 32 → let q (id : Nat) : Prop := id ≠ 0 ∧ p.pending.getLsbD id = true ∧ p.enable.getLsbD id = true ∧
      p.threshold.toNat < (p.priorityOf id).toNat
    let id := p.claim.1; let p' := p.claim.2
    (id = 0 ↔ ∀ j < 32, ¬q j) ∧ (p.output = true ↔ id ≠ 0) ∧
    (id ≠ 0 → id < 32 ∧ q id ∧
      (∀ j < 32, q j → (p.priorityOf j).toNat ≤ (p.priorityOf id).toNat ∧
        ((p.priorityOf j).toNat = (p.priorityOf id).toNat → id ≤ j)) ∧
      (∀ j, p'.pending.getLsbD j = (p.pending.getLsbD j && j != id)) ∧ p'.request id = p' ∧
      ((p'.complete id).request id).pending.getLsbD id = true) ∧
    (src ≠ 0 → p.inService.getLsbD src = false → (p.request src).pending.getLsbD src = true)

/-- Bare and M accesses are untranslated, non-canonical ones fault, and a leaf gives its 56-bit address (R151, R230,
R231, R232, R239). -/
def Obligations.TranslationOffAndPhysicalAddresses : Prop :=
  (∀ (s : State) (acc : Access) (va : Word),
    s.effPriv acc = (if acc ≠ .fetch ∧ s.cfg.mprvTranslates = true ∧ s.priv = .M ∧ s.csr.mstatus.mprv = true
      then s.csr.mstatus.mpp else s.priv) ∧
    (satpMode s.csr.satp = 0#4 ∨ s.effPriv acc = .M → s.translate acc va = .ok va s) ∧
    (satpMode s.csr.satp ≠ 0#4 → s.effPriv acc ≠ .M → ¬(-2 ^ 38 ≤ va.toInt ∧ va.toInt < 2 ^ 38) →
      s.translate acc va = .raise (match acc with
        | .fetch => .instructionPageFault
        | .load => .loadPageFault
        | .store => .storePageFault) va)) ∧
  (∀ (ppn : BitVec 44) (va : Word),
    (pageAddress .kib4 ppn va).toNat = ppn.toNat * 2 ^ 12 + va.toNat % 2 ^ 12 ∧
    (pageAddress .mib2 ppn va).toNat = ppn.toNat / 2 ^ 9 * 2 ^ 21 + va.toNat % 2 ^ 21 ∧
    (pageAddress .gib1 ppn va).toNat = ppn.toNat / 2 ^ 18 * 2 ^ 30 + va.toNat % 2 ^ 30 ∧
    PageSize.ofLevel 0 = .kib4 ∧ PageSize.ofLevel 1 = .mib2 ∧ PageSize.ofLevel 2 = .gib1)

/-- A walk reads the PTEs of R236, follows pointers, and succeeds at a valid, permitted, aligned leaf or faults (R234,
R235, R236, R237). -/
def Obligations.WalkFindsPermittedLeaves : Prop :=
  (∀ (s t : State) (acc : Access) (p : Priv) (va a pteAddr pte : Word) (i level : Nat),
    s.walkFrom 0 acc p va a i = (.leaf pteAddr pte level, t) →
    let m := s.csr.mstatus; let b (k : Nat) : Bool := pte.getLsbD k
    level ≤ i ∧ b 0 = true ∧ (b 2 = true → b 1 = true) ∧ pte.toNat / 2 ^ 54 = 0 ∧ (b 1 = true ∨ b 3 = true) ∧
    (pte.toNat / 2 ^ 10) % 2 ^ (9 * level) = 0 ∧
    (match acc with
      | .fetch => b 3 = true
      | .load => b 1 = true ∨ (m.mxr = true ∧ b 3 = true)
      | .store => b 2 = true) ∧
    ((p = .U ∧ b 4 = true) ∨ (p = .S ∧ b 4 = false) ∨ (p = .S ∧ b 4 = true ∧ acc ≠ .fetch ∧ m.sum = true)) ∧
    ∃ table entry : Nat → Word, let addr (j : Nat) : Word := table j + BitVec.ofNat 64 (8 * (va.toNat / 2 ^ (12 + 9 * j) % 2 ^ 9))
      table i = a ∧ addr level = pteAddr ∧ entry level = pte ∧
      (∀ j, level ≤ j → j ≤ i → State.inRam s.cfg (addr j).toNat 8 = true →
        (entry j).toNat = ∑ k ∈ Finset.range 8, (s.byteAt ((addr j).toNat + k)).toNat * 256 ^ k) ∧
      (∀ j, level < j → j ≤ i → (entry j).toNat % 2 ^ 4 = 1 ∧ (entry j).toNat / 2 ^ 54 = 0 ∧
        table (j - 1) = BitVec.ofNat 64 ((entry j).toNat / 2 ^ 10 % 2 ^ 44 * 4096))) ∧
  (∀ (s : State) (acc : Access) (p : Priv) (va a : Word) (i : Nat), let found := s.walkFrom 0 acc p va a i
    let pteAddr : Word := a + BitVec.ofNat 64 (8 * (va.toNat / 2 ^ (12 + 9 * i) % 2 ^ 9))
    (s.busRead pteAddr 8 = none → found.1 = .accessFault) ∧
    (∀ pte t, s.busRead pteAddr 8 = some (pte, t) → let m := s.csr.mstatus; let b (k : Nat) : Bool := pte.getLsbD k
      let malformed := b 0 = false ∨ (b 1 = false ∧ b 2 = true) ∨ pte.toNat / 2 ^ 54 ≠ 0
      let pointer := b 1 = false ∧ b 3 = false
      let permitted :=
        (match acc with
          | .fetch => b 3 = true
          | .load => b 1 = true ∨ (m.mxr = true ∧ b 3 = true)
          | .store => b 2 = true) ∧
        ((p = .U ∧ b 4 = true) ∨ (p = .S ∧ (b 4 = false ∨ (acc ≠ .fetch ∧ m.sum = true))))
      (malformed → found.1 = .pageFault) ∧
      (¬malformed → pointer → i = 0 → found.1 = .pageFault) ∧
      (¬malformed → pointer → i ≠ 0 →
        found = t.walkFrom 0 acc p va (BitVec.ofNat 64 (pte.toNat / 2 ^ 10 % 2 ^ 44 * 4096)) (i - 1)) ∧
      (¬malformed → ¬pointer → ¬permitted ∨ (pte.toNat / 2 ^ 10) % 2 ^ (9 * i) ≠ 0 → found.1 = .pageFault) ∧
      (¬malformed → ¬pointer → permitted → (pte.toNat / 2 ^ 10) % 2 ^ (9 * i) = 0 → found = (.leaf pteAddr pte i, t))))

/-- A translation by the tables as they are succeeds by an entry or leaf that permits it, kept in its TLB and in
memory, else it faults (R230, R235, R236, R238, R242, R243, R822). -/
def Obligations.TranslatedAccessHasAPermittedEntry : Prop :=
  (∀ (s t : State) (acc : Access) (va pa : Word), (acc = .fetch → s.walkLog = []) → satpMode s.csr.satp ≠ 0#4 →
    s.effPriv acc ≠ .M → s.cfg.tlbSize ≠ 0 → s.translate acc va = .ok pa t →
    (-2 ^ 38 ≤ va.toInt ∧ va.toInt < 2 ^ 38) ∧
    (∃ e ∈ t.tlb acc, e.hits va (satpAsid s.csr.satp) = true ∧ s.permitted acc (s.effPriv acc) e.r e.w e.x e.u = true ∧
      (acc = .store → e.d = true) ∧ pa = pageAddress e.size e.ppn va) ∧
    (let found := (s.entries acc va).find? fun e => e.hits va (satpAsid s.csr.satp)
     let u := (s.setTlb acc (s.entries acc va)).useDraw
     (found = none ∨ (acc = .store ∧ ∃ e, found = some e ∧ e.d = false)) →
     ∃ pteAddr pte level w,
      u.walkFrom 0 acc (s.effPriv acc) va (BitVec.ofNat 64 (s.csr.satp.toNat % 2 ^ 44 * 4096)) 2 =
        (.leaf pteAddr pte level, w) ∧
      (t.tlb acc).head? = some {
        vpn := BitVec.ofNat 27 (va.toNat / 2 ^ (12 + 9 * level) * 2 ^ (9 * level)), asid := satpAsid s.csr.satp,
        ppn := BitVec.ofNat 44 (pte.toNat / 2 ^ 10), r := pte.getLsbD 1, w := pte.getLsbD 2, x := pte.getLsbD 3,
        u := pte.getLsbD 4, g := pte.getLsbD 5, a := true, d := pte.getLsbD 7 || decide (acc = .store),
        size := PageSize.ofLevel level } ∧
      (State.inRam s.cfg pteAddr.toNat 8 = true →
        ∑ k ∈ Finset.range 8, (t.byteAt (pteAddr.toNat + k)).toNat * 256 ^ k =
          (pte ||| (if acc = .store then 0xC0#64 else 0x40#64)).toNat))) ∧
  (∀ (s : State) (acc : Access) (va v : Word) (e : Exc), s.translate acc va = .raise e v →
    v = va ∧ (e = acc.pageFault ∨ e = acc.accessFault)) ∧
  (∀ (s : State) (acc : Access) (va : Word), satpMode s.csr.satp ≠ 0#4 → s.effPriv acc ≠ .M →
    let found := (s.entries acc va).find? fun e => e.hits va (satpAsid s.csr.satp)
    let u := (s.setTlb acc (s.entries acc va)).useDraw
    let walked := u.walkFrom 0 acc (s.effPriv acc) va (BitVec.ofNat 64 (s.csr.satp.toNat % 2 ^ 44 * 4096)) 2
    let permits (e : TlbEntry) : Bool := s.permitted acc (s.effPriv acc) e.r e.w e.x e.u
    if -2 ^ 38 ≤ va.toInt ∧ va.toInt < 2 ^ 38 then
      (∀ e, found = some e →
        (permits e = false → s.translate acc va = .raise acc.pageFault va) ∧
        (permits e = true → (acc = .store → e.d = true) → ∃ t, s.translate acc va = .ok (pageAddress e.size e.ppn va) t)) ∧
      ((found = none ∨ (acc = .store ∧ ∃ e, found = some e ∧ permits e = true ∧ e.d = false)) → (acc = .fetch → s.walkLog = []) →
        (walked.1 = .pageFault → s.translate acc va = .raise acc.pageFault va) ∧
        (walked.1 = .accessFault → s.translate acc va = .raise acc.accessFault va) ∧
        (∀ pteAddr pte level, walked.1 = .leaf pteAddr pte level →
          (∀ v, (walked.2.busWrite pteAddr 8 v).isSome = true) ∧
          ∃ t, s.translate acc va = .ok (pageAddress (PageSize.ofLevel level) (BitVec.ofNat 44 (pte.toNat / 2 ^ 10)) va) t))
    else s.translate acc va = .raise acc.pageFault va)

/-- A translation by the tables as they are changes no byte but the eight of a leaf PTE it must mark; of the core only
TLB state (R231, R238, R240, R243). -/
def Obligations.TranslationFrame : Prop :=
  ∀ (s t : State) (acc : Access) (va pa : Word), s.translate acc va = .ok pa t →
    State.SameCore s t ∧
    (satpMode s.csr.satp = 0#4 ∨ s.effPriv acc = .M → t = s ∧ pa = va) ∧
    ((acc = .fetch → s.walkLog = []) → ∀ a : Nat,
      let found := (s.entries acc va).find? fun e => e.hits va (satpAsid s.csr.satp)
      let u := (s.setTlb acc (s.entries acc va)).useDraw
      (found = none ∨ (acc = .store ∧ ∃ e, found = some e ∧ e.d = false) →
        ∀ pteAddr pte level w,
          u.walkFrom 0 acc (s.effPriv acc) va (BitVec.ofNat 64 (s.csr.satp.toNat % 2 ^ 44 * 4096)) 2 = (.leaf pteAddr pte level, w) →
          pte ||| (if acc = .store then 0xC0#64 else 0x40#64) ≠ pte → a < pteAddr.toNat ∨ pteAddr.toNat + 8 ≤ a) →
      t.byteAt a = s.byteAt a)

/-- A DRAM access costs what its row and the open row say, then the transit time, and opens its row (R982, R983). -/
def Obligations.DramAndBusLatency : Prop :=
  (∀ (u : Uarch) (t : TimingConfig) (pa bytes : Nat),
    let row := pa / t.dramRowBytes; let bus := transitTime t bytes; let r := u.dram t pa bytes
    (u.openRow = none → r.1 = t.tRAS + t.tCAS + bus) ∧
    (u.openRow = some row → r.1 = t.tCAS + bus) ∧
    (∀ q, u.openRow = some q → q ≠ row → r.1 = t.tPRE + t.tRAS + t.tCAS + bus) ∧
    r.2 = { u with openRow := some row }) ∧
  (∀ (t : TimingConfig) (bytes : Nat), 0 < t.busWidthBytes → ∃ n, transitTime t bytes = n * t.busLatencyCycles ∧
    bytes ≤ n * t.busWidthBytes ∧ ∀ m, bytes ≤ m * t.busWidthBytes → n ≤ m) ∧
  (∀ c : Config, (Uarch.init c).openRow = none)

/-- Every lookup of a cache counts once, as a hit or a miss; a misprediction counts once and redirects (R283, R289,
R950). That a wrong prediction of an instruction that is no control transfer counts and redirects too is log 38
(DESIGN CHOICE; R950 speaks of control transfers). -/
def Obligations.LookupsAndMispredictionsAreCounted : Prop :=
  (∀ (cfg : Config) (tr : Word → Option Nat) (l : Level) (below : List Level) (bytes : Nat) (r : Request) (u : Uarch),
    l ∉ below →
    let c := levelConfig cfg l; let v := (u.access cfg tr (l :: below) bytes r).2
    let present := (u.setOf c l r.pa).lines.any fun x => x.state != .invalid && x.tag == lineTag c r.pa
    (v.cache l).hits = (u.cache l).hits + (if present then 1 else 0) ∧
    (v.cache l).misses = (u.cache l).misses + (if present then 0 else 1) ∧
    ∀ k, k ∉ l :: below → v.cache k = u.cache k) ∧
  (∀ (s : State) (e : IdEx) (out : ExMem) (i : Instr), out.trap = none → out.decoded = some i →
    let r := s.resolve e out
    (r.2 = if out.branchActual = e.predNext then none else some out.branchActual) ∧
    r.1.uarch.stats.mispredictions =
      s.uarch.stats.mispredictions + (if out.branchActual = e.predNext then 0 else 1) ∧
    r.1 = { s with uarch := r.1.uarch })

/-- At the instruction level no instruction and no step reads or, by log 1, changes the microarchitectural state
(R134, R280, R960). That the instruction-level step leaves the microarchitectural state alone, which cycle changes, is
the model's choice of two levels, log 1 (DEDUCED from R10 and R960). -/
def Obligations.MicroarchitectureIsInvisible : Prop :=
  (∀ (i : Instr) (s : State) (u : Uarch), exec i { s with uarch := u } = withUarch u (exec i s)) ∧
  (∀ (s : State) (u : Uarch), step { s with uarch := u } = withUarch u (step s))

/-- Read at decode, executed and written back, an instruction without memory access has the effect of its meaning
(R713, R922, R924, R925, R930, R943, R960). What of a CSR is read at writeback and not in EX is log 34 (DEDUCED). -/
def Obligations.PipelineRetiresWhatExecSays : Prop :=
  ∀ (i : Instr) (s t : State), exec i s = .next t → t.atBoundary = true →
    let e : IdEx := ⟨s.pc, some i, BitVec.ofNat 64 (instrSize i), (sources i).map s.readReg,
      s.pc + BitVec.ofNat 64 (instrSize i), none⟩
    let out := s.executeEntry e e.rv
    (usesMemory i = false → actsAtWriteback i = false → s.ended = none →
      out.trap = none ∧ s.retireEntry (State.passMemory out) = t) ∧
    (isCsr i = true →
      out.trap = none ∧ s.retireCsr (State.passMemory out) i = .next t ∧
      ∀ (l : Lines) (rd : Reg), State.csrNamed i = some .mip ∨ State.csrNamed i = some .sip → destX i = some rd →
        ∃ u, State.retireCsr { s with lines := l } (State.passMemory out) i = .next u ∧ u.readX rd = t.readX rd)

end
end

