-- ==== Sys2Proof/Laws/State.lean ====
section
/-! SUPPORT. What each named update of State leaves in each field, so that no proof unfolds an update. -/
namespace Sys2Proof.Machine.State

/-! ### writeX -/

@[simp] theorem writeX_cfg (s : State) (r : Reg) (v : Word) : (s.writeX r v).cfg = s.cfg :=
    by unfold State.writeX; split <;> rfl
@[simp] theorem writeX_f (s : State) (r : Reg) (v : Word) : (s.writeX r v).f = s.f :=
    by unfold State.writeX; split <;> rfl
@[simp] theorem writeX_pc (s : State) (r : Reg) (v : Word) : (s.writeX r v).pc = s.pc :=
    by unfold State.writeX; split <;> rfl
@[simp] theorem writeX_priv (s : State) (r : Reg) (v : Word) : (s.writeX r v).priv = s.priv :=
    by unfold State.writeX; split <;> rfl
@[simp] theorem writeX_csr (s : State) (r : Reg) (v : Word) : (s.writeX r v).csr = s.csr :=
    by unfold State.writeX; split <;> rfl
@[simp] theorem writeX_resv (s : State) (r : Reg) (v : Word) : (s.writeX r v).resv = s.resv :=
    by unfold State.writeX; split <;> rfl
@[simp] theorem writeX_lines (s : State) (r : Reg) (v : Word) : (s.writeX r v).lines = s.lines :=
    by unfold State.writeX; split <;> rfl
@[simp] theorem writeX_lineLag (s : State) (r : Reg) (v : Word) : (s.writeX r v).lineLag = s.lineLag :=
    by unfold State.writeX; split <;> rfl
@[simp] theorem writeX_itlb (s : State) (r : Reg) (v : Word) : (s.writeX r v).itlb = s.itlb :=
    by unfold State.writeX; split <;> rfl
@[simp] theorem writeX_dtlb (s : State) (r : Reg) (v : Word) : (s.writeX r v).dtlb = s.dtlb :=
    by unfold State.writeX; split <;> rfl
@[simp] theorem writeX_mem (s : State) (r : Reg) (v : Word) : (s.writeX r v).mem = s.mem :=
    by unfold State.writeX; split <;> rfl
@[simp] theorem writeX_fetchLog (s : State) (r : Reg) (v : Word) : (s.writeX r v).fetchLog = s.fetchLog :=
    by unfold State.writeX; split <;> rfl
@[simp] theorem writeX_walkLog (s : State) (r : Reg) (v : Word) : (s.writeX r v).walkLog = s.walkLog :=
    by unfold State.writeX; split <;> rfl
@[simp] theorem writeX_clint (s : State) (r : Reg) (v : Word) : (s.writeX r v).clint = s.clint :=
    by unfold State.writeX; split <;> rfl
@[simp] theorem writeX_plic (s : State) (r : Reg) (v : Word) : (s.writeX r v).plic = s.plic :=
    by unfold State.writeX; split <;> rfl
@[simp] theorem writeX_devLog (s : State) (r : Reg) (v : Word) : (s.writeX r v).devLog = s.devLog :=
    by unfold State.writeX; split <;> rfl
@[simp] theorem writeX_inputs (s : State) (r : Reg) (v : Word) : (s.writeX r v).inputs = s.inputs :=
    by unfold State.writeX; split <;> rfl
@[simp] theorem writeX_waiting (s : State) (r : Reg) (v : Word) : (s.writeX r v).waiting = s.waiting :=
    by unfold State.writeX; split <;> rfl
@[simp] theorem writeX_atBoundary (s : State) (r : Reg) (v : Word) : (s.writeX r v).atBoundary = s.atBoundary :=
    by unfold State.writeX; split <;> rfl
@[simp] theorem writeX_ended (s : State) (r : Reg) (v : Word) : (s.writeX r v).ended = s.ended :=
    by unfold State.writeX; split <;> rfl
@[simp] theorem writeX_draws (s : State) (r : Reg) (v : Word) : (s.writeX r v).draws = s.draws :=
    by unfold State.writeX; split <;> rfl
@[simp] theorem writeX_exact (s : State) (r : Reg) (v : Word) : (s.writeX r v).exact = s.exact :=
    by unfold State.writeX; split <;> rfl
@[simp] theorem writeX_uarch (s : State) (r : Reg) (v : Word) : (s.writeX r v).uarch = s.uarch :=
    by unfold State.writeX; split <;> rfl

/-! ### writeF -/

@[simp] theorem writeF_cfg (s : State) (r : Reg) (v : Word) : (s.writeF r v).cfg = s.cfg := rfl
@[simp] theorem writeF_x (s : State) (r : Reg) (v : Word) : (s.writeF r v).x = s.x := rfl
@[simp] theorem writeF_f (s : State) (r : Reg) (v : Word) : (s.writeF r v).f = s.f.set r.toNat v := rfl
@[simp] theorem writeF_pc (s : State) (r : Reg) (v : Word) : (s.writeF r v).pc = s.pc := rfl
@[simp] theorem writeF_priv (s : State) (r : Reg) (v : Word) : (s.writeF r v).priv = s.priv := rfl
@[simp] theorem writeF_csr (s : State) (r : Reg) (v : Word) : (s.writeF r v).csr = { s.csr with mstatus := { s.csr.mstatus with fs := 3#2 } } :=
    rfl
@[simp] theorem writeF_resv (s : State) (r : Reg) (v : Word) : (s.writeF r v).resv = s.resv := rfl
@[simp] theorem writeF_lines (s : State) (r : Reg) (v : Word) : (s.writeF r v).lines = s.lines := rfl
@[simp] theorem writeF_lineLag (s : State) (r : Reg) (v : Word) : (s.writeF r v).lineLag = s.lineLag := rfl
@[simp] theorem writeF_itlb (s : State) (r : Reg) (v : Word) : (s.writeF r v).itlb = s.itlb := rfl
@[simp] theorem writeF_dtlb (s : State) (r : Reg) (v : Word) : (s.writeF r v).dtlb = s.dtlb := rfl
@[simp] theorem writeF_mem (s : State) (r : Reg) (v : Word) : (s.writeF r v).mem = s.mem := rfl
@[simp] theorem writeF_fetchLog (s : State) (r : Reg) (v : Word) : (s.writeF r v).fetchLog = s.fetchLog := rfl
@[simp] theorem writeF_walkLog (s : State) (r : Reg) (v : Word) : (s.writeF r v).walkLog = s.walkLog := rfl
@[simp] theorem writeF_clint (s : State) (r : Reg) (v : Word) : (s.writeF r v).clint = s.clint := rfl
@[simp] theorem writeF_plic (s : State) (r : Reg) (v : Word) : (s.writeF r v).plic = s.plic := rfl
@[simp] theorem writeF_devLog (s : State) (r : Reg) (v : Word) : (s.writeF r v).devLog = s.devLog := rfl
@[simp] theorem writeF_inputs (s : State) (r : Reg) (v : Word) : (s.writeF r v).inputs = s.inputs := rfl
@[simp] theorem writeF_waiting (s : State) (r : Reg) (v : Word) : (s.writeF r v).waiting = s.waiting := rfl
@[simp] theorem writeF_atBoundary (s : State) (r : Reg) (v : Word) : (s.writeF r v).atBoundary = s.atBoundary := rfl
@[simp] theorem writeF_ended (s : State) (r : Reg) (v : Word) : (s.writeF r v).ended = s.ended := rfl
@[simp] theorem writeF_draws (s : State) (r : Reg) (v : Word) : (s.writeF r v).draws = s.draws := rfl
@[simp] theorem writeF_exact (s : State) (r : Reg) (v : Word) : (s.writeF r v).exact = s.exact := rfl
@[simp] theorem writeF_uarch (s : State) (r : Reg) (v : Word) : (s.writeF r v).uarch = s.uarch := rfl

/-! ### dirtyFp -/

@[simp] theorem dirtyFp_cfg (s : State) : (s.dirtyFp).cfg = s.cfg := rfl
@[simp] theorem dirtyFp_x (s : State) : (s.dirtyFp).x = s.x := rfl
@[simp] theorem dirtyFp_f (s : State) : (s.dirtyFp).f = s.f := rfl
@[simp] theorem dirtyFp_pc (s : State) : (s.dirtyFp).pc = s.pc := rfl
@[simp] theorem dirtyFp_priv (s : State) : (s.dirtyFp).priv = s.priv := rfl
@[simp] theorem dirtyFp_csr (s : State) : (s.dirtyFp).csr = { s.csr with mstatus := { s.csr.mstatus with fs := 3#2 } } :=
    rfl
@[simp] theorem dirtyFp_resv (s : State) : (s.dirtyFp).resv = s.resv := rfl
@[simp] theorem dirtyFp_lines (s : State) : (s.dirtyFp).lines = s.lines := rfl
@[simp] theorem dirtyFp_lineLag (s : State) : (s.dirtyFp).lineLag = s.lineLag := rfl
@[simp] theorem dirtyFp_itlb (s : State) : (s.dirtyFp).itlb = s.itlb := rfl
@[simp] theorem dirtyFp_dtlb (s : State) : (s.dirtyFp).dtlb = s.dtlb := rfl
@[simp] theorem dirtyFp_mem (s : State) : (s.dirtyFp).mem = s.mem := rfl
@[simp] theorem dirtyFp_fetchLog (s : State) : (s.dirtyFp).fetchLog = s.fetchLog := rfl
@[simp] theorem dirtyFp_walkLog (s : State) : (s.dirtyFp).walkLog = s.walkLog := rfl
@[simp] theorem dirtyFp_clint (s : State) : (s.dirtyFp).clint = s.clint := rfl
@[simp] theorem dirtyFp_plic (s : State) : (s.dirtyFp).plic = s.plic := rfl
@[simp] theorem dirtyFp_devLog (s : State) : (s.dirtyFp).devLog = s.devLog := rfl
@[simp] theorem dirtyFp_inputs (s : State) : (s.dirtyFp).inputs = s.inputs := rfl
@[simp] theorem dirtyFp_waiting (s : State) : (s.dirtyFp).waiting = s.waiting := rfl
@[simp] theorem dirtyFp_atBoundary (s : State) : (s.dirtyFp).atBoundary = s.atBoundary := rfl
@[simp] theorem dirtyFp_ended (s : State) : (s.dirtyFp).ended = s.ended := rfl
@[simp] theorem dirtyFp_draws (s : State) : (s.dirtyFp).draws = s.draws := rfl
@[simp] theorem dirtyFp_exact (s : State) : (s.dirtyFp).exact = s.exact := rfl
@[simp] theorem dirtyFp_uarch (s : State) : (s.dirtyFp).uarch = s.uarch := rfl

/-! ### accrue -/

@[simp] theorem accrue_cfg (s : State) (fl : FFlags) : (s.accrue fl).cfg = s.cfg :=
    by unfold State.accrue; split <;> rfl
@[simp] theorem accrue_x (s : State) (fl : FFlags) : (s.accrue fl).x = s.x := by unfold State.accrue; split <;> rfl
@[simp] theorem accrue_f (s : State) (fl : FFlags) : (s.accrue fl).f = s.f := by unfold State.accrue; split <;> rfl
@[simp] theorem accrue_pc (s : State) (fl : FFlags) : (s.accrue fl).pc = s.pc := by unfold State.accrue; split <;> rfl
@[simp] theorem accrue_priv (s : State) (fl : FFlags) : (s.accrue fl).priv = s.priv :=
    by unfold State.accrue; split <;> rfl
@[simp] theorem accrue_resv (s : State) (fl : FFlags) : (s.accrue fl).resv = s.resv :=
    by unfold State.accrue; split <;> rfl
@[simp] theorem accrue_lines (s : State) (fl : FFlags) : (s.accrue fl).lines = s.lines :=
    by unfold State.accrue; split <;> rfl
@[simp] theorem accrue_lineLag (s : State) (fl : FFlags) : (s.accrue fl).lineLag = s.lineLag :=
    by unfold State.accrue; split <;> rfl
@[simp] theorem accrue_itlb (s : State) (fl : FFlags) : (s.accrue fl).itlb = s.itlb :=
    by unfold State.accrue; split <;> rfl
@[simp] theorem accrue_dtlb (s : State) (fl : FFlags) : (s.accrue fl).dtlb = s.dtlb :=
    by unfold State.accrue; split <;> rfl
@[simp] theorem accrue_mem (s : State) (fl : FFlags) : (s.accrue fl).mem = s.mem :=
    by unfold State.accrue; split <;> rfl
@[simp] theorem accrue_fetchLog (s : State) (fl : FFlags) : (s.accrue fl).fetchLog = s.fetchLog :=
    by unfold State.accrue; split <;> rfl
@[simp] theorem accrue_walkLog (s : State) (fl : FFlags) : (s.accrue fl).walkLog = s.walkLog :=
    by unfold State.accrue; split <;> rfl
@[simp] theorem accrue_clint (s : State) (fl : FFlags) : (s.accrue fl).clint = s.clint :=
    by unfold State.accrue; split <;> rfl
@[simp] theorem accrue_plic (s : State) (fl : FFlags) : (s.accrue fl).plic = s.plic :=
    by unfold State.accrue; split <;> rfl
@[simp] theorem accrue_devLog (s : State) (fl : FFlags) : (s.accrue fl).devLog = s.devLog :=
    by unfold State.accrue; split <;> rfl
@[simp] theorem accrue_inputs (s : State) (fl : FFlags) : (s.accrue fl).inputs = s.inputs :=
    by unfold State.accrue; split <;> rfl
@[simp] theorem accrue_waiting (s : State) (fl : FFlags) : (s.accrue fl).waiting = s.waiting :=
    by unfold State.accrue; split <;> rfl
@[simp] theorem accrue_atBoundary (s : State) (fl : FFlags) : (s.accrue fl).atBoundary = s.atBoundary :=
    by unfold State.accrue; split <;> rfl
@[simp] theorem accrue_ended (s : State) (fl : FFlags) : (s.accrue fl).ended = s.ended :=
    by unfold State.accrue; split <;> rfl
@[simp] theorem accrue_draws (s : State) (fl : FFlags) : (s.accrue fl).draws = s.draws :=
    by unfold State.accrue; split <;> rfl
@[simp] theorem accrue_exact (s : State) (fl : FFlags) : (s.accrue fl).exact = s.exact :=
    by unfold State.accrue; split <;> rfl
@[simp] theorem accrue_uarch (s : State) (fl : FFlags) : (s.accrue fl).uarch = s.uarch :=
    by unfold State.accrue; split <;> rfl

/-! ### retireTo -/

@[simp] theorem retireTo_cfg (s : State) (t : Word) : (s.retireTo t).cfg = s.cfg := rfl
@[simp] theorem retireTo_x (s : State) (t : Word) : (s.retireTo t).x = s.x := rfl
@[simp] theorem retireTo_f (s : State) (t : Word) : (s.retireTo t).f = s.f := rfl
@[simp] theorem retireTo_pc (s : State) (t : Word) : (s.retireTo t).pc = t := rfl
@[simp] theorem retireTo_priv (s : State) (t : Word) : (s.retireTo t).priv = s.priv := rfl
@[simp] theorem retireTo_csr (s : State) (t : Word) : (s.retireTo t).csr = { s.csr with minstret := s.csr.minstret + 1#64 } :=
    rfl
@[simp] theorem retireTo_resv (s : State) (t : Word) : (s.retireTo t).resv = s.resv := rfl
@[simp] theorem retireTo_lines (s : State) (t : Word) : (s.retireTo t).lines = s.lines := rfl
@[simp] theorem retireTo_lineLag (s : State) (t : Word) : (s.retireTo t).lineLag = s.lineLag := rfl
@[simp] theorem retireTo_itlb (s : State) (t : Word) : (s.retireTo t).itlb = s.itlb := rfl
@[simp] theorem retireTo_dtlb (s : State) (t : Word) : (s.retireTo t).dtlb = s.dtlb := rfl
@[simp] theorem retireTo_mem (s : State) (t : Word) : (s.retireTo t).mem = s.mem := rfl
@[simp] theorem retireTo_fetchLog (s : State) (t : Word) : (s.retireTo t).fetchLog = s.fetchLog := rfl
@[simp] theorem retireTo_walkLog (s : State) (t : Word) : (s.retireTo t).walkLog = s.walkLog := rfl
@[simp] theorem retireTo_clint (s : State) (t : Word) : (s.retireTo t).clint = s.clint := rfl
@[simp] theorem retireTo_plic (s : State) (t : Word) : (s.retireTo t).plic = s.plic := rfl
@[simp] theorem retireTo_devLog (s : State) (t : Word) : (s.retireTo t).devLog = s.devLog := rfl
@[simp] theorem retireTo_inputs (s : State) (t : Word) : (s.retireTo t).inputs = s.inputs := rfl
@[simp] theorem retireTo_waiting (s : State) (t : Word) : (s.retireTo t).waiting = s.waiting := rfl
@[simp] theorem retireTo_atBoundary (s : State) (t : Word) : (s.retireTo t).atBoundary = true := rfl
@[simp] theorem retireTo_ended (s : State) (t : Word) : (s.retireTo t).ended = s.ended := rfl
@[simp] theorem retireTo_draws (s : State) (t : Word) : (s.retireTo t).draws = s.draws := rfl
@[simp] theorem retireTo_exact (s : State) (t : Word) : (s.retireTo t).exact = s.exact := rfl
@[simp] theorem retireTo_uarch (s : State) (t : Word) : (s.retireTo t).uarch = s.uarch := rfl

/-! ### useDraw -/

@[simp] theorem useDraw_cfg (s : State) : (s.useDraw).cfg = s.cfg := rfl
@[simp] theorem useDraw_x (s : State) : (s.useDraw).x = s.x := rfl
@[simp] theorem useDraw_f (s : State) : (s.useDraw).f = s.f := rfl
@[simp] theorem useDraw_pc (s : State) : (s.useDraw).pc = s.pc := rfl
@[simp] theorem useDraw_priv (s : State) : (s.useDraw).priv = s.priv := rfl
@[simp] theorem useDraw_csr (s : State) : (s.useDraw).csr = s.csr := rfl
@[simp] theorem useDraw_resv (s : State) : (s.useDraw).resv = s.resv := rfl
@[simp] theorem useDraw_lines (s : State) : (s.useDraw).lines = s.lines := rfl
@[simp] theorem useDraw_lineLag (s : State) : (s.useDraw).lineLag = s.lineLag := rfl
@[simp] theorem useDraw_itlb (s : State) : (s.useDraw).itlb = s.itlb := rfl
@[simp] theorem useDraw_dtlb (s : State) : (s.useDraw).dtlb = s.dtlb := rfl
@[simp] theorem useDraw_mem (s : State) : (s.useDraw).mem = s.mem := rfl
@[simp] theorem useDraw_fetchLog (s : State) : (s.useDraw).fetchLog = s.fetchLog := rfl
@[simp] theorem useDraw_walkLog (s : State) : (s.useDraw).walkLog = s.walkLog := rfl
@[simp] theorem useDraw_clint (s : State) : (s.useDraw).clint = s.clint := rfl
@[simp] theorem useDraw_plic (s : State) : (s.useDraw).plic = s.plic := rfl
@[simp] theorem useDraw_devLog (s : State) : (s.useDraw).devLog = s.devLog := rfl
@[simp] theorem useDraw_inputs (s : State) : (s.useDraw).inputs = s.inputs := rfl
@[simp] theorem useDraw_waiting (s : State) : (s.useDraw).waiting = s.waiting := rfl
@[simp] theorem useDraw_atBoundary (s : State) : (s.useDraw).atBoundary = s.atBoundary := rfl
@[simp] theorem useDraw_ended (s : State) : (s.useDraw).ended = s.ended := rfl
@[simp] theorem useDraw_draws (s : State) : (s.useDraw).draws = s.draws + 1 := rfl
@[simp] theorem useDraw_exact (s : State) : (s.useDraw).exact = s.exact := rfl
@[simp] theorem useDraw_uarch (s : State) : (s.useDraw).uarch = s.uarch := rfl

/-! ### writeRam -/

@[simp] theorem writeRam_cfg (s : State) (a n : Nat) (v : Word) : (s.writeRam a n v).cfg = s.cfg := rfl
@[simp] theorem writeRam_x (s : State) (a n : Nat) (v : Word) : (s.writeRam a n v).x = s.x := rfl
@[simp] theorem writeRam_f (s : State) (a n : Nat) (v : Word) : (s.writeRam a n v).f = s.f := rfl
@[simp] theorem writeRam_pc (s : State) (a n : Nat) (v : Word) : (s.writeRam a n v).pc = s.pc := rfl
@[simp] theorem writeRam_priv (s : State) (a n : Nat) (v : Word) : (s.writeRam a n v).priv = s.priv := rfl
@[simp] theorem writeRam_csr (s : State) (a n : Nat) (v : Word) : (s.writeRam a n v).csr = s.csr := rfl
@[simp] theorem writeRam_resv (s : State) (a n : Nat) (v : Word) : (s.writeRam a n v).resv = s.resv := rfl
@[simp] theorem writeRam_lines (s : State) (a n : Nat) (v : Word) : (s.writeRam a n v).lines = s.lines := rfl
@[simp] theorem writeRam_lineLag (s : State) (a n : Nat) (v : Word) : (s.writeRam a n v).lineLag = s.lineLag := rfl
@[simp] theorem writeRam_itlb (s : State) (a n : Nat) (v : Word) : (s.writeRam a n v).itlb = s.itlb := rfl
@[simp] theorem writeRam_dtlb (s : State) (a n : Nat) (v : Word) : (s.writeRam a n v).dtlb = s.dtlb := rfl
@[simp] theorem writeRam_mem (s : State) (a n : Nat) (v : Word) : (s.writeRam a n v).mem = s.mem.writeBytes a n v := rfl
@[simp] theorem writeRam_fetchLog (s : State) (a n : Nat) (v : Word) : (s.writeRam a n v).fetchLog = ⟨a, s.mem.readBytes a n⟩ :: s.fetchLog :=
    rfl
@[simp] theorem writeRam_walkLog (s : State) (a n : Nat) (v : Word) : (s.writeRam a n v).walkLog = .store ⟨a, s.mem.readBytes a n⟩ :: s.walkLog :=
    rfl
@[simp] theorem writeRam_clint (s : State) (a n : Nat) (v : Word) : (s.writeRam a n v).clint = s.clint := rfl
@[simp] theorem writeRam_plic (s : State) (a n : Nat) (v : Word) : (s.writeRam a n v).plic = s.plic := rfl
@[simp] theorem writeRam_devLog (s : State) (a n : Nat) (v : Word) : (s.writeRam a n v).devLog = s.devLog := rfl
@[simp] theorem writeRam_inputs (s : State) (a n : Nat) (v : Word) : (s.writeRam a n v).inputs = s.inputs := rfl
@[simp] theorem writeRam_waiting (s : State) (a n : Nat) (v : Word) : (s.writeRam a n v).waiting = s.waiting := rfl
@[simp] theorem writeRam_atBoundary (s : State) (a n : Nat) (v : Word) : (s.writeRam a n v).atBoundary = s.atBoundary :=
    rfl
@[simp] theorem writeRam_ended (s : State) (a n : Nat) (v : Word) : (s.writeRam a n v).ended = s.ended := rfl
@[simp] theorem writeRam_draws (s : State) (a n : Nat) (v : Word) : (s.writeRam a n v).draws = s.draws := rfl
@[simp] theorem writeRam_exact (s : State) (a n : Nat) (v : Word) : (s.writeRam a n v).exact = s.exact := rfl
@[simp] theorem writeRam_uarch (s : State) (a n : Nat) (v : Word) : (s.writeRam a n v).uarch = s.uarch := rfl

/-! ### writeByte -/

@[simp] theorem writeByte_cfg (s : State) (a : Nat) (b : Byte) : (s.writeByte a b).cfg = s.cfg := rfl
@[simp] theorem writeByte_x (s : State) (a : Nat) (b : Byte) : (s.writeByte a b).x = s.x := rfl
@[simp] theorem writeByte_f (s : State) (a : Nat) (b : Byte) : (s.writeByte a b).f = s.f := rfl
@[simp] theorem writeByte_pc (s : State) (a : Nat) (b : Byte) : (s.writeByte a b).pc = s.pc := rfl
@[simp] theorem writeByte_priv (s : State) (a : Nat) (b : Byte) : (s.writeByte a b).priv = s.priv := rfl
@[simp] theorem writeByte_csr (s : State) (a : Nat) (b : Byte) : (s.writeByte a b).csr = s.csr := rfl
@[simp] theorem writeByte_resv (s : State) (a : Nat) (b : Byte) : (s.writeByte a b).resv = s.resv := rfl
@[simp] theorem writeByte_lines (s : State) (a : Nat) (b : Byte) : (s.writeByte a b).lines = s.lines := rfl
@[simp] theorem writeByte_lineLag (s : State) (a : Nat) (b : Byte) : (s.writeByte a b).lineLag = s.lineLag := rfl
@[simp] theorem writeByte_itlb (s : State) (a : Nat) (b : Byte) : (s.writeByte a b).itlb = s.itlb := rfl
@[simp] theorem writeByte_dtlb (s : State) (a : Nat) (b : Byte) : (s.writeByte a b).dtlb = s.dtlb := rfl
@[simp] theorem writeByte_mem (s : State) (a : Nat) (b : Byte) : (s.writeByte a b).mem = s.mem.write a b := rfl
@[simp] theorem writeByte_fetchLog (s : State) (a : Nat) (b : Byte) : (s.writeByte a b).fetchLog = ⟨a, [s.mem.read? a]⟩ :: s.fetchLog :=
    rfl
@[simp] theorem writeByte_walkLog (s : State) (a : Nat) (b : Byte) : (s.writeByte a b).walkLog = .store ⟨a, [s.mem.read? a]⟩ :: s.walkLog :=
    rfl
@[simp] theorem writeByte_clint (s : State) (a : Nat) (b : Byte) : (s.writeByte a b).clint = s.clint := rfl
@[simp] theorem writeByte_plic (s : State) (a : Nat) (b : Byte) : (s.writeByte a b).plic = s.plic := rfl
@[simp] theorem writeByte_devLog (s : State) (a : Nat) (b : Byte) : (s.writeByte a b).devLog = s.devLog := rfl
@[simp] theorem writeByte_inputs (s : State) (a : Nat) (b : Byte) : (s.writeByte a b).inputs = s.inputs := rfl
@[simp] theorem writeByte_waiting (s : State) (a : Nat) (b : Byte) : (s.writeByte a b).waiting = s.waiting := rfl
@[simp] theorem writeByte_atBoundary (s : State) (a : Nat) (b : Byte) : (s.writeByte a b).atBoundary = s.atBoundary :=
    rfl
@[simp] theorem writeByte_ended (s : State) (a : Nat) (b : Byte) : (s.writeByte a b).ended = s.ended := rfl
@[simp] theorem writeByte_draws (s : State) (a : Nat) (b : Byte) : (s.writeByte a b).draws = s.draws := rfl
@[simp] theorem writeByte_exact (s : State) (a : Nat) (b : Byte) : (s.writeByte a b).exact = s.exact := rfl
@[simp] theorem writeByte_uarch (s : State) (a : Nat) (b : Byte) : (s.writeByte a b).uarch = s.uarch := rfl

/-! ### enterM -/

@[simp] theorem enterM_cfg (s : State) (c : TrapCause) (epc tval : Word) : (s.enterM c epc tval).cfg = s.cfg := rfl
@[simp] theorem enterM_x (s : State) (c : TrapCause) (epc tval : Word) : (s.enterM c epc tval).x = s.x := rfl
@[simp] theorem enterM_f (s : State) (c : TrapCause) (epc tval : Word) : (s.enterM c epc tval).f = s.f := rfl
@[simp] theorem enterM_pc (s : State) (c : TrapCause) (epc tval : Word) : (s.enterM c epc tval).pc = trapVector s.csr.mtvec c :=
    rfl
@[simp] theorem enterM_priv (s : State) (c : TrapCause) (epc tval : Word) : (s.enterM c epc tval).priv = .M := rfl
@[simp] theorem enterM_csr (s : State) (c : TrapCause) (epc tval : Word) : (s.enterM c epc tval).csr = { s.csr with mepc := epc &&& ~~~1#64, mcause := c.value, mtval := tval, mstatus := { s.csr.mstatus with mpie := s.csr.mstatus.mie, mie := false, mpp := s.priv } } :=
    rfl
@[simp] theorem enterM_resv (s : State) (c : TrapCause) (epc tval : Word) : (s.enterM c epc tval).resv = none := rfl
@[simp] theorem enterM_lines (s : State) (c : TrapCause) (epc tval : Word) : (s.enterM c epc tval).lines = s.lines :=
    rfl
@[simp] theorem enterM_lineLag (s : State) (c : TrapCause) (epc tval : Word) : (s.enterM c epc tval).lineLag = s.lineLag :=
    rfl
@[simp] theorem enterM_itlb (s : State) (c : TrapCause) (epc tval : Word) : (s.enterM c epc tval).itlb = s.itlb := rfl
@[simp] theorem enterM_dtlb (s : State) (c : TrapCause) (epc tval : Word) : (s.enterM c epc tval).dtlb = s.dtlb := rfl
@[simp] theorem enterM_mem (s : State) (c : TrapCause) (epc tval : Word) : (s.enterM c epc tval).mem = s.mem := rfl
@[simp] theorem enterM_fetchLog (s : State) (c : TrapCause) (epc tval : Word) : (s.enterM c epc tval).fetchLog = s.fetchLog :=
    rfl
@[simp] theorem enterM_walkLog (s : State) (c : TrapCause) (epc tval : Word) : (s.enterM c epc tval).walkLog = s.walkLog :=
    rfl
@[simp] theorem enterM_clint (s : State) (c : TrapCause) (epc tval : Word) : (s.enterM c epc tval).clint = s.clint :=
    rfl
@[simp] theorem enterM_plic (s : State) (c : TrapCause) (epc tval : Word) : (s.enterM c epc tval).plic = s.plic := rfl
@[simp] theorem enterM_devLog (s : State) (c : TrapCause) (epc tval : Word) : (s.enterM c epc tval).devLog = s.devLog :=
    rfl
@[simp] theorem enterM_inputs (s : State) (c : TrapCause) (epc tval : Word) : (s.enterM c epc tval).inputs = s.inputs :=
    rfl
@[simp] theorem enterM_waiting (s : State) (c : TrapCause) (epc tval : Word) : (s.enterM c epc tval).waiting = s.waiting :=
    rfl
@[simp] theorem enterM_atBoundary (s : State) (c : TrapCause) (epc tval : Word) : (s.enterM c epc tval).atBoundary = false :=
    rfl
@[simp] theorem enterM_ended (s : State) (c : TrapCause) (epc tval : Word) : (s.enterM c epc tval).ended = s.ended :=
    rfl
@[simp] theorem enterM_draws (s : State) (c : TrapCause) (epc tval : Word) : (s.enterM c epc tval).draws = s.draws :=
    rfl
@[simp] theorem enterM_exact (s : State) (c : TrapCause) (epc tval : Word) : (s.enterM c epc tval).exact = s.exact :=
    rfl
@[simp] theorem enterM_uarch (s : State) (c : TrapCause) (epc tval : Word) : (s.enterM c epc tval).uarch = s.uarch :=
    rfl

/-! ### enterS -/

@[simp] theorem enterS_cfg (s : State) (c : TrapCause) (epc tval : Word) : (s.enterS c epc tval).cfg = s.cfg := rfl
@[simp] theorem enterS_x (s : State) (c : TrapCause) (epc tval : Word) : (s.enterS c epc tval).x = s.x := rfl
@[simp] theorem enterS_f (s : State) (c : TrapCause) (epc tval : Word) : (s.enterS c epc tval).f = s.f := rfl
@[simp] theorem enterS_pc (s : State) (c : TrapCause) (epc tval : Word) : (s.enterS c epc tval).pc = trapVector s.csr.stvec c :=
    rfl
@[simp] theorem enterS_priv (s : State) (c : TrapCause) (epc tval : Word) : (s.enterS c epc tval).priv = .S := rfl
@[simp] theorem enterS_csr (s : State) (c : TrapCause) (epc tval : Word) : (s.enterS c epc tval).csr = { s.csr with sepc := epc &&& ~~~1#64, scause := c.value, stval := tval, mstatus := { s.csr.mstatus with spie := s.csr.mstatus.sie, sie := false, spp := decide (s.priv = .S) } } :=
    rfl
@[simp] theorem enterS_resv (s : State) (c : TrapCause) (epc tval : Word) : (s.enterS c epc tval).resv = none := rfl
@[simp] theorem enterS_lines (s : State) (c : TrapCause) (epc tval : Word) : (s.enterS c epc tval).lines = s.lines :=
    rfl
@[simp] theorem enterS_lineLag (s : State) (c : TrapCause) (epc tval : Word) : (s.enterS c epc tval).lineLag = s.lineLag :=
    rfl
@[simp] theorem enterS_itlb (s : State) (c : TrapCause) (epc tval : Word) : (s.enterS c epc tval).itlb = s.itlb := rfl
@[simp] theorem enterS_dtlb (s : State) (c : TrapCause) (epc tval : Word) : (s.enterS c epc tval).dtlb = s.dtlb := rfl
@[simp] theorem enterS_mem (s : State) (c : TrapCause) (epc tval : Word) : (s.enterS c epc tval).mem = s.mem := rfl
@[simp] theorem enterS_fetchLog (s : State) (c : TrapCause) (epc tval : Word) : (s.enterS c epc tval).fetchLog = s.fetchLog :=
    rfl
@[simp] theorem enterS_walkLog (s : State) (c : TrapCause) (epc tval : Word) : (s.enterS c epc tval).walkLog = s.walkLog :=
    rfl
@[simp] theorem enterS_clint (s : State) (c : TrapCause) (epc tval : Word) : (s.enterS c epc tval).clint = s.clint :=
    rfl
@[simp] theorem enterS_plic (s : State) (c : TrapCause) (epc tval : Word) : (s.enterS c epc tval).plic = s.plic := rfl
@[simp] theorem enterS_devLog (s : State) (c : TrapCause) (epc tval : Word) : (s.enterS c epc tval).devLog = s.devLog :=
    rfl
@[simp] theorem enterS_inputs (s : State) (c : TrapCause) (epc tval : Word) : (s.enterS c epc tval).inputs = s.inputs :=
    rfl
@[simp] theorem enterS_waiting (s : State) (c : TrapCause) (epc tval : Word) : (s.enterS c epc tval).waiting = s.waiting :=
    rfl
@[simp] theorem enterS_atBoundary (s : State) (c : TrapCause) (epc tval : Word) : (s.enterS c epc tval).atBoundary = false :=
    rfl
@[simp] theorem enterS_ended (s : State) (c : TrapCause) (epc tval : Word) : (s.enterS c epc tval).ended = s.ended :=
    rfl
@[simp] theorem enterS_draws (s : State) (c : TrapCause) (epc tval : Word) : (s.enterS c epc tval).draws = s.draws :=
    rfl
@[simp] theorem enterS_exact (s : State) (c : TrapCause) (epc tval : Word) : (s.enterS c epc tval).exact = s.exact :=
    rfl
@[simp] theorem enterS_uarch (s : State) (c : TrapCause) (epc tval : Word) : (s.enterS c epc tval).uarch = s.uarch :=
    rfl

/-! ### enterTrap -/

@[simp] theorem enterTrap_cfg (s : State) (c : TrapCause) (epc tval : Word) : (s.enterTrap c epc tval).cfg = s.cfg :=
    by unfold State.enterTrap; split <;> rfl
@[simp] theorem enterTrap_x (s : State) (c : TrapCause) (epc tval : Word) : (s.enterTrap c epc tval).x = s.x :=
    by unfold State.enterTrap; split <;> rfl
@[simp] theorem enterTrap_f (s : State) (c : TrapCause) (epc tval : Word) : (s.enterTrap c epc tval).f = s.f :=
    by unfold State.enterTrap; split <;> rfl
@[simp] theorem enterTrap_resv (s : State) (c : TrapCause) (epc tval : Word) : (s.enterTrap c epc tval).resv = none :=
    by unfold State.enterTrap; split <;> rfl
@[simp] theorem enterTrap_lines (s : State) (c : TrapCause) (epc tval : Word) : (s.enterTrap c epc tval).lines = s.lines :=
    by unfold State.enterTrap; split <;> rfl
@[simp] theorem enterTrap_lineLag (s : State) (c : TrapCause) (epc tval : Word) : (s.enterTrap c epc tval).lineLag = s.lineLag :=
    by unfold State.enterTrap; split <;> rfl
@[simp] theorem enterTrap_itlb (s : State) (c : TrapCause) (epc tval : Word) : (s.enterTrap c epc tval).itlb = s.itlb :=
    by unfold State.enterTrap; split <;> rfl
@[simp] theorem enterTrap_dtlb (s : State) (c : TrapCause) (epc tval : Word) : (s.enterTrap c epc tval).dtlb = s.dtlb :=
    by unfold State.enterTrap; split <;> rfl
@[simp] theorem enterTrap_mem (s : State) (c : TrapCause) (epc tval : Word) : (s.enterTrap c epc tval).mem = s.mem :=
    by unfold State.enterTrap; split <;> rfl
@[simp] theorem enterTrap_fetchLog (s : State) (c : TrapCause) (epc tval : Word) : (s.enterTrap c epc tval).fetchLog = s.fetchLog :=
    by unfold State.enterTrap; split <;> rfl
@[simp] theorem enterTrap_walkLog (s : State) (c : TrapCause) (epc tval : Word) : (s.enterTrap c epc tval).walkLog = s.walkLog :=
    by unfold State.enterTrap; split <;> rfl
@[simp] theorem enterTrap_clint (s : State) (c : TrapCause) (epc tval : Word) : (s.enterTrap c epc tval).clint = s.clint :=
    by unfold State.enterTrap; split <;> rfl
@[simp] theorem enterTrap_plic (s : State) (c : TrapCause) (epc tval : Word) : (s.enterTrap c epc tval).plic = s.plic :=
    by unfold State.enterTrap; split <;> rfl
@[simp] theorem enterTrap_devLog (s : State) (c : TrapCause) (epc tval : Word) : (s.enterTrap c epc tval).devLog = s.devLog :=
    by unfold State.enterTrap; split <;> rfl
@[simp] theorem enterTrap_inputs (s : State) (c : TrapCause) (epc tval : Word) : (s.enterTrap c epc tval).inputs = s.inputs :=
    by unfold State.enterTrap; split <;> rfl
@[simp] theorem enterTrap_waiting (s : State) (c : TrapCause) (epc tval : Word) : (s.enterTrap c epc tval).waiting = s.waiting :=
    by unfold State.enterTrap; split <;> rfl
@[simp] theorem enterTrap_atBoundary (s : State) (c : TrapCause) (epc tval : Word) : (s.enterTrap c epc tval).atBoundary = false :=
    by unfold State.enterTrap; split <;> rfl
@[simp] theorem enterTrap_ended (s : State) (c : TrapCause) (epc tval : Word) : (s.enterTrap c epc tval).ended = s.ended :=
    by unfold State.enterTrap; split <;> rfl
@[simp] theorem enterTrap_draws (s : State) (c : TrapCause) (epc tval : Word) : (s.enterTrap c epc tval).draws = s.draws :=
    by unfold State.enterTrap; split <;> rfl
@[simp] theorem enterTrap_exact (s : State) (c : TrapCause) (epc tval : Word) : (s.enterTrap c epc tval).exact = s.exact :=
    by unfold State.enterTrap; split <;> rfl
@[simp] theorem enterTrap_uarch (s : State) (c : TrapCause) (epc tval : Word) : (s.enterTrap c epc tval).uarch = s.uarch :=
    by unfold State.enterTrap; split <;> rfl

/-! ### flushTlbs -/

@[simp] theorem flushTlbs_cfg (s : State) (va : Option Word) (asid : Option (BitVec 16)) : (s.flushTlbs va asid).cfg = s.cfg :=
    rfl
@[simp] theorem flushTlbs_x (s : State) (va : Option Word) (asid : Option (BitVec 16)) : (s.flushTlbs va asid).x = s.x :=
    rfl
@[simp] theorem flushTlbs_f (s : State) (va : Option Word) (asid : Option (BitVec 16)) : (s.flushTlbs va asid).f = s.f :=
    rfl
@[simp] theorem flushTlbs_pc (s : State) (va : Option Word) (asid : Option (BitVec 16)) : (s.flushTlbs va asid).pc = s.pc :=
    rfl
@[simp] theorem flushTlbs_priv (s : State) (va : Option Word) (asid : Option (BitVec 16)) : (s.flushTlbs va asid).priv = s.priv :=
    rfl
@[simp] theorem flushTlbs_csr (s : State) (va : Option Word) (asid : Option (BitVec 16)) : (s.flushTlbs va asid).csr = s.csr :=
    rfl
@[simp] theorem flushTlbs_resv (s : State) (va : Option Word) (asid : Option (BitVec 16)) : (s.flushTlbs va asid).resv = s.resv :=
    rfl
@[simp] theorem flushTlbs_lines (s : State) (va : Option Word) (asid : Option (BitVec 16)) : (s.flushTlbs va asid).lines = s.lines :=
    rfl
@[simp] theorem flushTlbs_lineLag (s : State) (va : Option Word) (asid : Option (BitVec 16)) : (s.flushTlbs va asid).lineLag = s.lineLag :=
    rfl
@[simp] theorem flushTlbs_itlb (s : State) (va : Option Word) (asid : Option (BitVec 16)) : (s.flushTlbs va asid).itlb = s.itlb.filter fun e => !e.selected va asid :=
    rfl
@[simp] theorem flushTlbs_dtlb (s : State) (va : Option Word) (asid : Option (BitVec 16)) : (s.flushTlbs va asid).dtlb = s.dtlb.filter fun e => !e.selected va asid :=
    rfl
@[simp] theorem flushTlbs_mem (s : State) (va : Option Word) (asid : Option (BitVec 16)) : (s.flushTlbs va asid).mem = s.mem :=
    rfl
@[simp] theorem flushTlbs_fetchLog (s : State) (va : Option Word) (asid : Option (BitVec 16)) : (s.flushTlbs va asid).fetchLog = s.fetchLog :=
    rfl
@[simp] theorem flushTlbs_clint (s : State) (va : Option Word) (asid : Option (BitVec 16)) : (s.flushTlbs va asid).clint = s.clint :=
    rfl
@[simp] theorem flushTlbs_plic (s : State) (va : Option Word) (asid : Option (BitVec 16)) : (s.flushTlbs va asid).plic = s.plic :=
    rfl
@[simp] theorem flushTlbs_devLog (s : State) (va : Option Word) (asid : Option (BitVec 16)) : (s.flushTlbs va asid).devLog = s.devLog :=
    rfl
@[simp] theorem flushTlbs_inputs (s : State) (va : Option Word) (asid : Option (BitVec 16)) : (s.flushTlbs va asid).inputs = s.inputs :=
    rfl
@[simp] theorem flushTlbs_waiting (s : State) (va : Option Word) (asid : Option (BitVec 16)) : (s.flushTlbs va asid).waiting = s.waiting :=
    rfl
@[simp] theorem flushTlbs_atBoundary (s : State) (va : Option Word) (asid : Option (BitVec 16)) : (s.flushTlbs va asid).atBoundary = s.atBoundary :=
    rfl
@[simp] theorem flushTlbs_ended (s : State) (va : Option Word) (asid : Option (BitVec 16)) : (s.flushTlbs va asid).ended = s.ended :=
    rfl
@[simp] theorem flushTlbs_draws (s : State) (va : Option Word) (asid : Option (BitVec 16)) : (s.flushTlbs va asid).draws = s.draws :=
    rfl
@[simp] theorem flushTlbs_exact (s : State) (va : Option Word) (asid : Option (BitVec 16)) : (s.flushTlbs va asid).exact = s.exact :=
    rfl
@[simp] theorem flushTlbs_uarch (s : State) (va : Option Word) (asid : Option (BitVec 16)) : (s.flushTlbs va asid).uarch = s.uarch :=
    rfl

/-! ### advanceBy -/

@[simp] theorem advanceBy_cfg (s : State) (n : Word) : (s.advanceBy n).cfg = s.cfg := rfl
@[simp] theorem advanceBy_x (s : State) (n : Word) : (s.advanceBy n).x = s.x := rfl
@[simp] theorem advanceBy_f (s : State) (n : Word) : (s.advanceBy n).f = s.f := rfl
@[simp] theorem advanceBy_pc (s : State) (n : Word) : (s.advanceBy n).pc = s.pc := rfl
@[simp] theorem advanceBy_priv (s : State) (n : Word) : (s.advanceBy n).priv = s.priv := rfl
@[simp] theorem advanceBy_csr (s : State) (n : Word) : (s.advanceBy n).csr = { s.csr with mcycle := s.csr.mcycle + n } :=
    rfl
@[simp] theorem advanceBy_resv (s : State) (n : Word) : (s.advanceBy n).resv = s.resv := rfl
@[simp] theorem advanceBy_lines (s : State) (n : Word) : (s.advanceBy n).lines = s.lines := rfl
@[simp] theorem advanceBy_lineLag (s : State) (n : Word) : (s.advanceBy n).lineLag = s.lineLag := rfl
@[simp] theorem advanceBy_itlb (s : State) (n : Word) : (s.advanceBy n).itlb = s.itlb := rfl
@[simp] theorem advanceBy_dtlb (s : State) (n : Word) : (s.advanceBy n).dtlb = s.dtlb := rfl
@[simp] theorem advanceBy_mem (s : State) (n : Word) : (s.advanceBy n).mem = s.mem := rfl
@[simp] theorem advanceBy_fetchLog (s : State) (n : Word) : (s.advanceBy n).fetchLog = s.fetchLog := rfl
@[simp] theorem advanceBy_walkLog (s : State) (n : Word) : (s.advanceBy n).walkLog = s.walkLog := rfl
@[simp] theorem advanceBy_clint (s : State) (n : Word) : (s.advanceBy n).clint = { s.clint with mtime := s.clint.mtime + n } :=
    rfl
@[simp] theorem advanceBy_plic (s : State) (n : Word) : (s.advanceBy n).plic = s.plic := rfl
@[simp] theorem advanceBy_devLog (s : State) (n : Word) : (s.advanceBy n).devLog = s.devLog := rfl
@[simp] theorem advanceBy_inputs (s : State) (n : Word) : (s.advanceBy n).inputs = s.inputs := rfl
@[simp] theorem advanceBy_waiting (s : State) (n : Word) : (s.advanceBy n).waiting = s.waiting := rfl
@[simp] theorem advanceBy_atBoundary (s : State) (n : Word) : (s.advanceBy n).atBoundary = s.atBoundary := rfl
@[simp] theorem advanceBy_ended (s : State) (n : Word) : (s.advanceBy n).ended = s.ended := rfl
@[simp] theorem advanceBy_draws (s : State) (n : Word) : (s.advanceBy n).draws = s.draws := rfl
@[simp] theorem advanceBy_exact (s : State) (n : Word) : (s.advanceBy n).exact = s.exact := rfl
@[simp] theorem advanceBy_uarch (s : State) (n : Word) : (s.advanceBy n).uarch = s.uarch := rfl

/-! ### advance -/

@[simp] theorem advance_cfg (s : State) : (s.advance).cfg = s.cfg := rfl
@[simp] theorem advance_x (s : State) : (s.advance).x = s.x := rfl
@[simp] theorem advance_f (s : State) : (s.advance).f = s.f := rfl
@[simp] theorem advance_pc (s : State) : (s.advance).pc = s.pc := rfl
@[simp] theorem advance_priv (s : State) : (s.advance).priv = s.priv := rfl
@[simp] theorem advance_csr (s : State) : (s.advance).csr = { s.csr with mcycle := s.csr.mcycle + s.cyclesNow } := rfl
@[simp] theorem advance_resv (s : State) : (s.advance).resv = s.resv := rfl
@[simp] theorem advance_lines (s : State) : (s.advance).lines = s.lines := rfl
@[simp] theorem advance_lineLag (s : State) : (s.advance).lineLag = s.lineLag := rfl
@[simp] theorem advance_itlb (s : State) : (s.advance).itlb = s.itlb := rfl
@[simp] theorem advance_dtlb (s : State) : (s.advance).dtlb = s.dtlb := rfl
@[simp] theorem advance_mem (s : State) : (s.advance).mem = s.mem := rfl
@[simp] theorem advance_fetchLog (s : State) : (s.advance).fetchLog = s.fetchLog := rfl
@[simp] theorem advance_walkLog (s : State) : (s.advance).walkLog = s.walkLog := rfl
@[simp] theorem advance_clint (s : State) : (s.advance).clint = { s.clint with mtime := s.clint.mtime + s.cyclesNow } :=
    rfl
@[simp] theorem advance_plic (s : State) : (s.advance).plic = s.plic := rfl
@[simp] theorem advance_devLog (s : State) : (s.advance).devLog = s.devLog := rfl
@[simp] theorem advance_inputs (s : State) : (s.advance).inputs = s.inputs := rfl
@[simp] theorem advance_waiting (s : State) : (s.advance).waiting = s.waiting := rfl
@[simp] theorem advance_atBoundary (s : State) : (s.advance).atBoundary = s.atBoundary := rfl
@[simp] theorem advance_ended (s : State) : (s.advance).ended = s.ended := rfl
@[simp] theorem advance_draws (s : State) : (s.advance).draws = s.draws + State.drawStride := rfl
@[simp] theorem advance_exact (s : State) : (s.advance).exact = s.exact := rfl
@[simp] theorem advance_uarch (s : State) : (s.advance).uarch = s.uarch := rfl

/-! ### noteLines -/

@[simp] theorem noteLines_cfg (s : State) (l : Lines) : (s.noteLines l).cfg = s.cfg := rfl
@[simp] theorem noteLines_x (s : State) (l : Lines) : (s.noteLines l).x = s.x := rfl
@[simp] theorem noteLines_f (s : State) (l : Lines) : (s.noteLines l).f = s.f := rfl
@[simp] theorem noteLines_pc (s : State) (l : Lines) : (s.noteLines l).pc = s.pc := rfl
@[simp] theorem noteLines_priv (s : State) (l : Lines) : (s.noteLines l).priv = s.priv := rfl
@[simp] theorem noteLines_csr (s : State) (l : Lines) : (s.noteLines l).csr = s.csr := rfl
@[simp] theorem noteLines_resv (s : State) (l : Lines) : (s.noteLines l).resv = s.resv := rfl
@[simp] theorem noteLines_lines (s : State) (l : Lines) : (s.noteLines l).lines = s.lines := rfl
@[simp] theorem noteLines_lineLag (s : State) (l : Lines) : (s.noteLines l).lineLag = if s.drivenLines = l then s.lineLag else max s.lineLag 2 :=
    rfl
@[simp] theorem noteLines_itlb (s : State) (l : Lines) : (s.noteLines l).itlb = s.itlb := rfl
@[simp] theorem noteLines_dtlb (s : State) (l : Lines) : (s.noteLines l).dtlb = s.dtlb := rfl
@[simp] theorem noteLines_mem (s : State) (l : Lines) : (s.noteLines l).mem = s.mem := rfl
@[simp] theorem noteLines_fetchLog (s : State) (l : Lines) : (s.noteLines l).fetchLog = s.fetchLog := rfl
@[simp] theorem noteLines_walkLog (s : State) (l : Lines) : (s.noteLines l).walkLog = s.walkLog := rfl
@[simp] theorem noteLines_clint (s : State) (l : Lines) : (s.noteLines l).clint = s.clint := rfl
@[simp] theorem noteLines_plic (s : State) (l : Lines) : (s.noteLines l).plic = s.plic := rfl
@[simp] theorem noteLines_devLog (s : State) (l : Lines) : (s.noteLines l).devLog = s.devLog := rfl
@[simp] theorem noteLines_inputs (s : State) (l : Lines) : (s.noteLines l).inputs = s.inputs := rfl
@[simp] theorem noteLines_waiting (s : State) (l : Lines) : (s.noteLines l).waiting = s.waiting := rfl
@[simp] theorem noteLines_atBoundary (s : State) (l : Lines) : (s.noteLines l).atBoundary = s.atBoundary := rfl
@[simp] theorem noteLines_ended (s : State) (l : Lines) : (s.noteLines l).ended = s.ended := rfl
@[simp] theorem noteLines_draws (s : State) (l : Lines) : (s.noteLines l).draws = s.draws := rfl
@[simp] theorem noteLines_exact (s : State) (l : Lines) : (s.noteLines l).exact = s.exact := rfl
@[simp] theorem noteLines_uarch (s : State) (l : Lines) : (s.noteLines l).uarch = s.uarch := rfl

/-! ### ageLines -/

@[simp] theorem ageLines_cfg (s : State) (l : Lines) : (s.ageLines l).cfg = s.cfg := rfl
@[simp] theorem ageLines_x (s : State) (l : Lines) : (s.ageLines l).x = s.x := rfl
@[simp] theorem ageLines_f (s : State) (l : Lines) : (s.ageLines l).f = s.f := rfl
@[simp] theorem ageLines_pc (s : State) (l : Lines) : (s.ageLines l).pc = s.pc := rfl
@[simp] theorem ageLines_priv (s : State) (l : Lines) : (s.ageLines l).priv = s.priv := rfl
@[simp] theorem ageLines_csr (s : State) (l : Lines) : (s.ageLines l).csr = s.csr := rfl
@[simp] theorem ageLines_resv (s : State) (l : Lines) : (s.ageLines l).resv = s.resv := rfl
@[simp] theorem ageLines_lines (s : State) (l : Lines) : (s.ageLines l).lines = s.lines := rfl
@[simp] theorem ageLines_lineLag (s : State) (l : Lines) : (s.ageLines l).lineLag = if s.drivenLines = l then s.lineLag - 1 else max (s.lineLag - 1) 2 :=
    rfl
@[simp] theorem ageLines_itlb (s : State) (l : Lines) : (s.ageLines l).itlb = s.itlb := rfl
@[simp] theorem ageLines_dtlb (s : State) (l : Lines) : (s.ageLines l).dtlb = s.dtlb := rfl
@[simp] theorem ageLines_mem (s : State) (l : Lines) : (s.ageLines l).mem = s.mem := rfl
@[simp] theorem ageLines_fetchLog (s : State) (l : Lines) : (s.ageLines l).fetchLog = s.fetchLog := rfl
@[simp] theorem ageLines_walkLog (s : State) (l : Lines) : (s.ageLines l).walkLog = s.walkLog := rfl
@[simp] theorem ageLines_clint (s : State) (l : Lines) : (s.ageLines l).clint = s.clint := rfl
@[simp] theorem ageLines_plic (s : State) (l : Lines) : (s.ageLines l).plic = s.plic := rfl
@[simp] theorem ageLines_devLog (s : State) (l : Lines) : (s.ageLines l).devLog = s.devLog := rfl
@[simp] theorem ageLines_inputs (s : State) (l : Lines) : (s.ageLines l).inputs = s.inputs := rfl
@[simp] theorem ageLines_waiting (s : State) (l : Lines) : (s.ageLines l).waiting = s.waiting := rfl
@[simp] theorem ageLines_atBoundary (s : State) (l : Lines) : (s.ageLines l).atBoundary = s.atBoundary := rfl
@[simp] theorem ageLines_ended (s : State) (l : Lines) : (s.ageLines l).ended = s.ended := rfl
@[simp] theorem ageLines_draws (s : State) (l : Lines) : (s.ageLines l).draws = s.draws := rfl
@[simp] theorem ageLines_exact (s : State) (l : Lines) : (s.ageLines l).exact = s.exact := rfl
@[simp] theorem ageLines_uarch (s : State) (l : Lines) : (s.ageLines l).uarch = s.uarch := rfl

/-! ### latchLines -/

@[simp] theorem latchLines_cfg (s : State) : (s.latchLines).cfg = s.cfg :=
    by unfold State.latchLines; (repeat' split) <;> rfl
@[simp] theorem latchLines_x (s : State) : (s.latchLines).x = s.x := by unfold State.latchLines; (repeat' split) <;> rfl
@[simp] theorem latchLines_f (s : State) : (s.latchLines).f = s.f := by unfold State.latchLines; (repeat' split) <;> rfl
@[simp] theorem latchLines_pc (s : State) : (s.latchLines).pc = s.pc :=
    by unfold State.latchLines; (repeat' split) <;> rfl
@[simp] theorem latchLines_priv (s : State) : (s.latchLines).priv = s.priv :=
    by unfold State.latchLines; (repeat' split) <;> rfl
@[simp] theorem latchLines_csr (s : State) : (s.latchLines).csr = s.csr :=
    by unfold State.latchLines; (repeat' split) <;> rfl
@[simp] theorem latchLines_resv (s : State) : (s.latchLines).resv = s.resv :=
    by unfold State.latchLines; (repeat' split) <;> rfl
@[simp] theorem latchLines_lineLag (s : State) : (s.latchLines).lineLag = s.lineLag :=
    by unfold State.latchLines; (repeat' split) <;> rfl
@[simp] theorem latchLines_itlb (s : State) : (s.latchLines).itlb = s.itlb :=
    by unfold State.latchLines; (repeat' split) <;> rfl
@[simp] theorem latchLines_dtlb (s : State) : (s.latchLines).dtlb = s.dtlb :=
    by unfold State.latchLines; (repeat' split) <;> rfl
@[simp] theorem latchLines_mem (s : State) : (s.latchLines).mem = s.mem :=
    by unfold State.latchLines; (repeat' split) <;> rfl
@[simp] theorem latchLines_fetchLog (s : State) : (s.latchLines).fetchLog = s.fetchLog :=
    by unfold State.latchLines; (repeat' split) <;> rfl
@[simp] theorem latchLines_walkLog (s : State) : (s.latchLines).walkLog = s.walkLog :=
    by unfold State.latchLines; (repeat' split) <;> rfl
@[simp] theorem latchLines_clint (s : State) : (s.latchLines).clint = s.clint :=
    by unfold State.latchLines; (repeat' split) <;> rfl
@[simp] theorem latchLines_plic (s : State) : (s.latchLines).plic = s.plic :=
    by unfold State.latchLines; (repeat' split) <;> rfl
@[simp] theorem latchLines_devLog (s : State) : (s.latchLines).devLog = s.devLog :=
    by unfold State.latchLines; (repeat' split) <;> rfl
@[simp] theorem latchLines_inputs (s : State) : (s.latchLines).inputs = s.inputs :=
    by unfold State.latchLines; (repeat' split) <;> rfl
@[simp] theorem latchLines_waiting (s : State) : (s.latchLines).waiting = s.waiting :=
    by unfold State.latchLines; (repeat' split) <;> rfl
@[simp] theorem latchLines_atBoundary (s : State) : (s.latchLines).atBoundary = s.atBoundary :=
    by unfold State.latchLines; (repeat' split) <;> rfl
@[simp] theorem latchLines_ended (s : State) : (s.latchLines).ended = s.ended :=
    by unfold State.latchLines; (repeat' split) <;> rfl
@[simp] theorem latchLines_exact (s : State) : (s.latchLines).exact = s.exact :=
    by unfold State.latchLines; (repeat' split) <;> rfl
@[simp] theorem latchLines_uarch (s : State) : (s.latchLines).uarch = s.uarch :=
    by unfold State.latchLines; (repeat' split) <;> rfl

/-! ### setTlb -/

@[simp] theorem setTlb_cfg (s : State) (acc : Access) (l : List TlbEntry) : (s.setTlb acc l).cfg = s.cfg :=
    by cases acc <;> rfl
@[simp] theorem setTlb_x (s : State) (acc : Access) (l : List TlbEntry) : (s.setTlb acc l).x = s.x :=
    by cases acc <;> rfl
@[simp] theorem setTlb_f (s : State) (acc : Access) (l : List TlbEntry) : (s.setTlb acc l).f = s.f :=
    by cases acc <;> rfl
@[simp] theorem setTlb_pc (s : State) (acc : Access) (l : List TlbEntry) : (s.setTlb acc l).pc = s.pc :=
    by cases acc <;> rfl
@[simp] theorem setTlb_priv (s : State) (acc : Access) (l : List TlbEntry) : (s.setTlb acc l).priv = s.priv :=
    by cases acc <;> rfl
@[simp] theorem setTlb_csr (s : State) (acc : Access) (l : List TlbEntry) : (s.setTlb acc l).csr = s.csr :=
    by cases acc <;> rfl
@[simp] theorem setTlb_resv (s : State) (acc : Access) (l : List TlbEntry) : (s.setTlb acc l).resv = s.resv :=
    by cases acc <;> rfl
@[simp] theorem setTlb_lines (s : State) (acc : Access) (l : List TlbEntry) : (s.setTlb acc l).lines = s.lines :=
    by cases acc <;> rfl
@[simp] theorem setTlb_lineLag (s : State) (acc : Access) (l : List TlbEntry) : (s.setTlb acc l).lineLag = s.lineLag :=
    by cases acc <;> rfl
@[simp] theorem setTlb_mem (s : State) (acc : Access) (l : List TlbEntry) : (s.setTlb acc l).mem = s.mem :=
    by cases acc <;> rfl
@[simp] theorem setTlb_fetchLog (s : State) (acc : Access) (l : List TlbEntry) : (s.setTlb acc l).fetchLog = s.fetchLog :=
    by cases acc <;> rfl
@[simp] theorem setTlb_walkLog (s : State) (acc : Access) (l : List TlbEntry) : (s.setTlb acc l).walkLog = s.walkLog :=
    by cases acc <;> rfl
@[simp] theorem setTlb_clint (s : State) (acc : Access) (l : List TlbEntry) : (s.setTlb acc l).clint = s.clint :=
    by cases acc <;> rfl
@[simp] theorem setTlb_plic (s : State) (acc : Access) (l : List TlbEntry) : (s.setTlb acc l).plic = s.plic :=
    by cases acc <;> rfl
@[simp] theorem setTlb_devLog (s : State) (acc : Access) (l : List TlbEntry) : (s.setTlb acc l).devLog = s.devLog :=
    by cases acc <;> rfl
@[simp] theorem setTlb_inputs (s : State) (acc : Access) (l : List TlbEntry) : (s.setTlb acc l).inputs = s.inputs :=
    by cases acc <;> rfl
@[simp] theorem setTlb_waiting (s : State) (acc : Access) (l : List TlbEntry) : (s.setTlb acc l).waiting = s.waiting :=
    by cases acc <;> rfl
@[simp] theorem setTlb_atBoundary (s : State) (acc : Access) (l : List TlbEntry) : (s.setTlb acc l).atBoundary = s.atBoundary :=
    by cases acc <;> rfl
@[simp] theorem setTlb_ended (s : State) (acc : Access) (l : List TlbEntry) : (s.setTlb acc l).ended = s.ended :=
    by cases acc <;> rfl
@[simp] theorem setTlb_draws (s : State) (acc : Access) (l : List TlbEntry) : (s.setTlb acc l).draws = s.draws :=
    by cases acc <;> rfl
@[simp] theorem setTlb_exact (s : State) (acc : Access) (l : List TlbEntry) : (s.setTlb acc l).exact = s.exact :=
    by cases acc <;> rfl
@[simp] theorem setTlb_uarch (s : State) (acc : Access) (l : List TlbEntry) : (s.setTlb acc l).uarch = s.uarch :=
    by cases acc <;> rfl

/-! ### writeSatp -/

@[simp] theorem writeSatp_cfg (s : State) (v : Word) : (s.writeSatp v).cfg = s.cfg :=
    by unfold State.writeSatp; (repeat' split) <;> rfl
@[simp] theorem writeSatp_x (s : State) (v : Word) : (s.writeSatp v).x = s.x :=
    by unfold State.writeSatp; (repeat' split) <;> rfl
@[simp] theorem writeSatp_f (s : State) (v : Word) : (s.writeSatp v).f = s.f :=
    by unfold State.writeSatp; (repeat' split) <;> rfl
@[simp] theorem writeSatp_pc (s : State) (v : Word) : (s.writeSatp v).pc = s.pc :=
    by unfold State.writeSatp; (repeat' split) <;> rfl
@[simp] theorem writeSatp_priv (s : State) (v : Word) : (s.writeSatp v).priv = s.priv :=
    by unfold State.writeSatp; (repeat' split) <;> rfl
@[simp] theorem writeSatp_resv (s : State) (v : Word) : (s.writeSatp v).resv = s.resv :=
    by unfold State.writeSatp; (repeat' split) <;> rfl
@[simp] theorem writeSatp_lines (s : State) (v : Word) : (s.writeSatp v).lines = s.lines :=
    by unfold State.writeSatp; (repeat' split) <;> rfl
@[simp] theorem writeSatp_lineLag (s : State) (v : Word) : (s.writeSatp v).lineLag = s.lineLag :=
    by unfold State.writeSatp; (repeat' split) <;> rfl
@[simp] theorem writeSatp_mem (s : State) (v : Word) : (s.writeSatp v).mem = s.mem :=
    by unfold State.writeSatp; (repeat' split) <;> rfl
@[simp] theorem writeSatp_fetchLog (s : State) (v : Word) : (s.writeSatp v).fetchLog = s.fetchLog :=
    by unfold State.writeSatp; (repeat' split) <;> rfl
@[simp] theorem writeSatp_clint (s : State) (v : Word) : (s.writeSatp v).clint = s.clint :=
    by unfold State.writeSatp; (repeat' split) <;> rfl
@[simp] theorem writeSatp_plic (s : State) (v : Word) : (s.writeSatp v).plic = s.plic :=
    by unfold State.writeSatp; (repeat' split) <;> rfl
@[simp] theorem writeSatp_devLog (s : State) (v : Word) : (s.writeSatp v).devLog = s.devLog :=
    by unfold State.writeSatp; (repeat' split) <;> rfl
@[simp] theorem writeSatp_inputs (s : State) (v : Word) : (s.writeSatp v).inputs = s.inputs :=
    by unfold State.writeSatp; (repeat' split) <;> rfl
@[simp] theorem writeSatp_waiting (s : State) (v : Word) : (s.writeSatp v).waiting = s.waiting :=
    by unfold State.writeSatp; (repeat' split) <;> rfl
@[simp] theorem writeSatp_atBoundary (s : State) (v : Word) : (s.writeSatp v).atBoundary = s.atBoundary :=
    by unfold State.writeSatp; (repeat' split) <;> rfl
@[simp] theorem writeSatp_ended (s : State) (v : Word) : (s.writeSatp v).ended = s.ended :=
    by unfold State.writeSatp; (repeat' split) <;> rfl
@[simp] theorem writeSatp_draws (s : State) (v : Word) : (s.writeSatp v).draws = s.draws :=
    by unfold State.writeSatp; (repeat' split) <;> rfl
@[simp] theorem writeSatp_exact (s : State) (v : Word) : (s.writeSatp v).exact = s.exact :=
    by unfold State.writeSatp; (repeat' split) <;> rfl
@[simp] theorem writeSatp_uarch (s : State) (v : Word) : (s.writeSatp v).uarch = s.uarch :=
    by unfold State.writeSatp; (repeat' split) <;> rfl

end Sys2Proof.Machine.State
end

