-- ==== Sys2Proof/Laws/Memory.lean ====
section
/-! SUPPORT. The laws of registers and memory: a read after a write, what a write leaves alone, and the canonical form. -/
namespace Sys2Proof.Machine

/-! ## The memory list -/

namespace Memory

theorem read?_write_same (m : Memory) (a : Nat) (b : Byte) : (m.write a b).read? a = some b := by
  induction m with
  | nil => simp [write, read?]
  | cons c m ih =>
    obtain ⟨k, v⟩ := c
    unfold write
    split
    · simp [read?]
    · split
      · simp [read?]
      · have : k ≠ a := by omega
        simp [read?, this, ih]

theorem read?_write_ne (m : Memory) {a k : Nat} (b : Byte) (h : k ≠ a) : (m.write a b).read? k = m.read? k := by
  induction m with
  | nil => simp [write, read?, Ne.symm h]
  | cons c m ih =>
    obtain ⟨j, v⟩ := c
    unfold write
    split
    · simp [read?, Ne.symm h]
    · split
      · rename_i h2
        subst h2
        simp [read?, Ne.symm h]
      · simp [read?, ih]

theorem mem_write {m : Memory} {a : Nat} {b : Byte} {c : Host.Cell} (h : c ∈ m.write a b) : c = (a, b) ∨ c ∈ m := by
  induction m with
  | nil => simpa [write] using h
  | cons d m ih =>
    obtain ⟨k, v⟩ := d
    unfold write at h
    split at h
    · simpa using h
    · split at h
      · simp at h
        rcases h with h | h
        · exact .inl h
        · exact .inr (List.mem_cons_of_mem _ h)
      · simp at h
        rcases h with h | h
        · exact .inr (by simp [h])
        · rcases ih h with h | h
          · exact .inl h
          · exact .inr (List.mem_cons_of_mem _ h)

/-- Every write keeps the canonical form. -/
theorem wf_write {m : Memory} (h : wf m) (a : Nat) (b : Byte) : wf (m.write a b) := by
  induction m with
  | nil => simp [write, wf]
  | cons c m ih =>
    obtain ⟨k, v⟩ := c
    obtain ⟨h1, h2⟩ := List.pairwise_cons.mp h
    unfold write
    split
    · refine List.pairwise_cons.mpr ⟨?_, h⟩
      intro d hd
      rcases List.mem_cons.mp hd with rfl | hd
      · assumption
      · exact lt_trans ‹_› (h1 d hd)
    · split
      · rename_i hk
        subst hk
        exact List.pairwise_cons.mpr ⟨h1, h2⟩
      · refine List.pairwise_cons.mpr ⟨?_, ih h2⟩
        intro d hd
        rcases mem_write hd with rfl | hd
        · show k < a
          omega
        · exact h1 d hd

theorem read?_writeBytes_outside (m : Memory) (a n : Nat) (v : BitVec 64) {k : Nat} (h : k < a ∨ a + n ≤ k) :
    (m.writeBytes a n v).read? k = m.read? k := by
  induction n generalizing m a v with
  | zero => rfl
  | succ n ih =>
    unfold writeBytes
    rw [ih _ _ _ (by omega), read?_write_ne _ _ (by omega)]

theorem read?_writeBytes_inside (m : Memory) (a n : Nat) (v : BitVec 64) {i : Nat} (h : i < n) :
    (m.writeBytes a n v).read? (a + i) = some (v.extractLsb' (8 * i) 8) := by
  induction n generalizing m a v i with
  | zero => omega
  | succ n ih =>
    unfold writeBytes
    cases i with
    | zero =>
      rw [read?_writeBytes_outside _ _ _ _ (by omega)]
      exact read?_write_same _ _ _
    | succ i =>
      rw [show a + (i + 1) = a + 1 + i by omega, ih _ _ _ (by omega)]
      congr 1
      ext j hj
      simp [show 8 + (8 * i + j) = 8 * (i + 1) + j by omega]

theorem wf_writeBytes {m : Memory} (h : wf m) (a n : Nat) (v : BitVec 64) : wf (m.writeBytes a n v) := by
  induction n generalizing m a v with
  | zero => exact h
  | succ n ih => exact ih (wf_write h _ _) _ _

theorem mem_writeBytes {m : Memory} {a n : Nat} {v : BitVec 64} {c : Host.Cell} (h : c ∈ m.writeBytes a n v) :
    (a ≤ c.1 ∧ c.1 < a + n) ∨ c ∈ m := by
  induction n generalizing m a v with
  | zero => exact .inr h
  | succ n ih =>
    rcases ih h with h | h
    · exact .inl (by omega)
    · rcases mem_write h with rfl | h
      · exact .inl (by constructor <;> simp)
      · exact .inr h

theorem readBytes_length (m : Memory) (a n : Nat) : (m.readBytes a n).length = n := by
  induction n generalizing a with
  | zero => rfl
  | succ n ih => simp [readBytes, ih]

theorem getElem?_readBytes (m : Memory) (a n : Nat) {i : Nat} (h : i < n) : (m.readBytes a n)[i]? = some (m.read? (a + i)) := by
  induction n generalizing a i with
  | zero => omega
  | succ n ih =>
    cases i with
    | zero => rfl
    | succ i =>
      show (m.readBytes (a + 1) n)[i]? = _
      rw [ih _ (by omega), show a + 1 + i = a + (i + 1) by omega]

theorem read?_none_of_lt {m : Memory} {a : Nat} (h : ∀ c ∈ m, a < c.1) : m.read? a = none := by
  induction m with
  | nil => rfl
  | cons c m ih =>
    obtain ⟨k, v⟩ := c
    have hk : a < k := h (k, v) (by simp)
    have : k ≠ a := by omega
    simp [read?, this, ih fun d hd => h d (List.mem_cons_of_mem _ hd)]

/-- Two memories in canonical form that read the same everywhere are the same data. -/
theorem eq_of_read? {m n : Memory} (hm : wf m) (hn : wf n) (h : ∀ a, m.read? a = n.read? a) : m = n := by
  induction m generalizing n with
  | nil =>
    cases n with
    | nil => rfl
    | cons d n => simpa [read?] using h d.1
  | cons c m ih =>
    obtain ⟨k, v⟩ := c
    obtain ⟨hm1, hm2⟩ := List.pairwise_cons.mp hm
    cases n with
    | nil => simpa [read?] using h k
    | cons d n =>
      obtain ⟨j, w⟩ := d
      obtain ⟨hn1, hn2⟩ := List.pairwise_cons.mp hn
      have hmk : read? m k = none := read?_none_of_lt hm1
      have hnj : read? n j = none := read?_none_of_lt hn1
      rcases Nat.lt_trichotomy k j with hlt | rfl | hlt
      · have hk := h k
        have hne : j ≠ k := by omega
        have : read? n k = none := read?_none_of_lt fun d hd => lt_trans hlt (hn1 d hd)
        simp [read?, hne, this] at hk
      · have hk := h k
        simp [read?] at hk
        subst hk
        have : m = n := by
          refine ih hm2 hn2 fun a => ?_
          by_cases ha : k = a
          · subst ha
            rw [hmk, hnj]
          · simpa [read?, ha] using h a
        rw [this]
      · have hj := h j
        have hne : k ≠ j := by omega
        have : read? m j = none := read?_none_of_lt fun d hd => lt_trans hlt (hm1 d hd)
        simp [read?, hne, this] at hj

end Memory

namespace State

/-! ## Registers -/

@[simp] theorem readX_zero (s : State) : s.readX 0#5 = 0#64 := rfl

@[simp] theorem writeX_zero (s : State) (v : Word) : s.writeX 0#5 v = s := rfl

theorem readX_writeX_same (s : State) {r : Reg} (v : Word) (h : r ≠ 0#5) : (s.writeX r v).readX r = v := by
  simp [readX, writeX, h]

theorem readX_writeX_ne (s : State) {r q : Reg} (v : Word) (h : q ≠ r) : (s.writeX r v).readX q = s.readX q := by
  unfold readX writeX
  split
  · rfl
  · split
    · rfl
    · have : r.toNat ≠ q.toNat := fun e => h (BitVec.eq_of_toNat_eq e.symm)
      simp [this]

/-- What register q reads as after register r was written. -/
theorem readX_writeX (s : State) (r q : Reg) (v : Word) :
    (s.writeX r v).readX q = if q = r ∧ r ≠ 0#5 then v else s.readX q := by
  by_cases h : q = r
  · subst h
    by_cases h0 : q = 0#5
    · subst h0
      simp
    · simp [h0, readX_writeX_same]
  · simp [h, readX_writeX_ne]

theorem readF_writeF_same (s : State) (r : Reg) (v : Word) : (s.writeF r v).readF r = v := by
  simp [readF]

theorem readF_writeF_ne (s : State) {r q : Reg} (v : Word) (h : q ≠ r) : (s.writeF r v).readF q = s.readF q := by
  have : r.toNat ≠ q.toNat := fun e => h (BitVec.eq_of_toNat_eq e.symm)
  simp [readF, this]

theorem readX_eq_of_x {s t : State} (h : t.x = s.x) (r : Reg) : t.readX r = s.readX r := by simp [readX, h]
theorem readF_eq_of_f {s t : State} (h : t.f = s.f) (r : Reg) : t.readF r = s.readF r := by simp [readF, h]
theorem byteAt_eq_of_mem {s t : State} (h : t.mem = s.mem) (a : Nat) : t.byteAt a = s.byteAt a := by simp [byteAt, h]

@[simp] theorem readX_retireTo (s : State) (p : Word) (r : Reg) : (s.retireTo p).readX r = s.readX r := rfl
@[simp] theorem readF_retireTo (s : State) (p : Word) (r : Reg) : (s.retireTo p).readF r = s.readF r := rfl
@[simp] theorem readF_writeX (s : State) (r q : Reg) (v : Word) : (s.writeX r v).readF q = s.readF q :=
  readF_eq_of_f (by simp) q
@[simp] theorem readX_writeF (s : State) (r q : Reg) (v : Word) : (s.writeF r v).readX q = s.readX q :=
  readX_eq_of_x (by simp) q
@[simp] theorem readX_accrue (s : State) (fl : FFlags) (q : Reg) : (s.accrue fl).readX q = s.readX q :=
  readX_eq_of_x (by simp) q
@[simp] theorem readF_accrue (s : State) (fl : FFlags) (q : Reg) : (s.accrue fl).readF q = s.readF q :=
  readF_eq_of_f (by simp) q
@[simp] theorem byteAt_retireTo (s : State) (p : Word) (a : Nat) : (s.retireTo p).byteAt a = s.byteAt a := rfl
@[simp] theorem byteAt_writeX (s : State) (r : Reg) (v : Word) (a : Nat) : (s.writeX r v).byteAt a = s.byteAt a :=
  byteAt_eq_of_mem (by simp) a
@[simp] theorem byteAt_writeF (s : State) (r : Reg) (v : Word) (a : Nat) : (s.writeF r v).byteAt a = s.byteAt a := rfl
@[simp] theorem byteAt_accrue (s : State) (fl : FFlags) (a : Nat) : (s.accrue fl).byteAt a = s.byteAt a :=
  byteAt_eq_of_mem (by simp) a
@[simp] theorem byteAt_enterTrap (s : State) (c : TrapCause) (e v : Word) (a : Nat) :
    (s.enterTrap c e v).byteAt a = s.byteAt a := byteAt_eq_of_mem (by simp) a

/-! ## Bytes of RAM -/

/-- A store leaves every byte outside it alone. -/
theorem byteAt_writeRam_outside (s : State) (a n : Nat) (v : Word) {k : Nat} (h : k < a ∨ a + n ≤ k) :
    (s.writeRam a n v).byteAt k = s.byteAt k := by
  simp [byteAt, Memory.read?_writeBytes_outside _ _ _ _ h]

/-- Byte i of a store is byte i of the value. -/
theorem byteAt_writeRam_inside (s : State) (a n : Nat) (v : Word) {i : Nat} (h : i < n) :
    (s.writeRam a n v).byteAt (a + i) = v.extractLsb' (8 * i) 8 := by
  simp [byteAt, Memory.read?_writeBytes_inside _ _ _ _ h]

/-- What the log of a store gives back: every byte as it was before the store (R183, R264, R266). -/
theorem byteBeforeStore_writeRam (s : State) (a n : Nat) (v : Word) (k : Nat) :
    byteBeforeStore ⟨a, s.mem.readBytes a n⟩ k ((s.writeRam a n v).byteAt k) = s.byteAt k := by
  simp only [byteBeforeStore]
  split
  · exact byteAt_writeRam_outside _ _ _ _ (.inl ‹_›)
  · by_cases hk : k < a + n
    · rw [Memory.getElem?_readBytes _ _ _ (by omega : k - a < n), show a + (k - a) = k by omega]
      unfold byteAt
      cases s.mem.read? k <;> rfl
    · rw [List.getElem?_eq_none (by rw [Memory.readBytes_length]; omega)]
      exact byteAt_writeRam_outside _ _ _ _ (.inr (by omega))

theorem ramValue_congr {s t : State} {a n : Nat} (h : ∀ i < n, t.byteAt (a + i) = s.byteAt (a + i)) :
    t.ramValue a n = s.ramValue a n := by
  induction n generalizing a with
  | zero => rfl
  | succ n ih =>
    have h0 : t.byteAt a = s.byteAt a := h 0 (by omega)
    unfold ramValue
    rw [h0, ih fun i hi => by
      have := h (i + 1) (by omega)
      rwa [show a + (i + 1) = a + 1 + i by omega] at this]

/-- Bit j of the value of n bytes is bit j mod 8 of byte j / 8. -/
theorem getLsbD_ramValue (s : State) (a n : Nat) (hn : n ≤ 8) (j : Nat) :
    (s.ramValue a n).getLsbD j = (decide (j < 8 * n) && (s.byteAt (a + j / 8)).getLsbD (j % 8)) := by
  induction n generalizing a j with
  | zero => simp [ramValue]
  | succ n ih =>
    unfold ramValue
    rw [BitVec.getLsbD_or, BitVec.getLsbD_shiftLeft, BitVec.getLsbD_setWidth, ih (a + 1) (by omega)]
    by_cases h8 : j < 8
    · have h1 : j / 8 = 0 := by omega
      have h2 : j % 8 = j := by omega
      have h3 : j < 64 := by omega
      have h4 : j < 8 * (n + 1) := by omega
      simp [h8, h1, h2, h3, h4]
    · have hb : (s.byteAt a).getLsbD j = false := BitVec.getLsbD_of_ge _ _ (by omega)
      have h1 : a + 1 + (j - 8) / 8 = a + j / 8 := by omega
      have h2 : (j - 8) % 8 = j % 8 := by omega
      rw [h1, h2, hb]
      by_cases hj : j < 8 * (n + 1)
      · have h64 : j < 64 := by omega
        have h5 : j - 8 < 8 * n := by omega
        simp [h8, hj, h64, h5]
      · have h5 : ¬ j - 8 < 8 * n := by omega
        simp [hj, h5]

theorem getLsbD_lowBytes (n : Nat) (v : Word) (j : Nat) :
    (lowBytes n v).getLsbD j = (decide (j < 8 * n) && v.getLsbD j) := by
  unfold lowBytes
  rw [BitVec.getLsbD_and, BitVec.getLsbD_ofNat, Nat.testBit_two_pow_sub_one]
  by_cases h : j < 64
  · simp [h, Bool.and_comm]
  · simp [BitVec.getLsbD_of_ge v j (by omega)]

/-- A load of the bytes just stored gives the value stored (R160, R263). -/
theorem ramValue_writeRam (s : State) (a n : Nat) (v : Word) (hn : n ≤ 8) :
    (s.writeRam a n v).ramValue a n = lowBytes n v := by
  apply BitVec.eq_of_getLsbD_eq
  intro j hj
  rw [getLsbD_ramValue _ _ _ hn, getLsbD_lowBytes]
  by_cases h : j < 8 * n
  · rw [byteAt_writeRam_inside _ _ _ _ (by omega : j / 8 < n)]
    have h1 : j % 8 < 8 := by omega
    simp [h, h1, show 8 * (j / 8) + j % 8 = j by omega]
  · simp [h]

/-- A load of bytes a store did not touch gives what it gave before. -/
theorem ramValue_writeRam_disjoint (s : State) (a n b k : Nat) (v : Word) (h : b + k ≤ a ∨ a + n ≤ b) :
    (s.writeRam a n v).ramValue b k = s.ramValue b k :=
  ramValue_congr fun i hi => byteAt_writeRam_outside _ _ _ _ (by omega)

/-! ## What a store leaves alone -/

theorem mem_writeRam_wf (s : State) (a n : Nat) (v : Word) (h : Memory.wf s.mem) :
    Memory.wf (s.writeRam a n v).mem := Memory.wf_writeBytes h a n v

theorem mem_writeRam_cells (s : State) (a n : Nat) (v : Word) {c : Host.Cell} (h : c ∈ (s.writeRam a n v).mem) :
    (a ≤ c.1 ∧ c.1 < a + n) ∨ c ∈ s.mem := Memory.mem_writeBytes h

end State
end Sys2Proof.Machine
end

