-- ==== Sys2Proof/Laws/Access.lean ====
section
/-! SUPPORT. What the bus, translation and the data access primitives can do: one lemma each, cited instead of unfolding. -/
namespace Sys2Proof.Machine

/-- A sequence that goes on: both its parts did. -/
theorem Res.bind_ok {α β : Type} {r : Res α} {k : α → State → Res β} {b : β} {t : State} (h : r.bind k = .ok b t) :
    ∃ a u, r = .ok a u ∧ k a u = .ok b t := by
  cases r with
  | ok a u => exact ⟨a, u, rfl, h⟩
  | raise e v => cases h

/-- A sequence that raises: its first part did, or its second. -/
theorem Res.bind_raise {α β : Type} {r : Res α} {k : α → State → Res β} {e : Exc} {v : Word}
    (h : r.bind k = .raise e v) : r = .raise e v ∨ ∃ a u, r = .ok a u ∧ k a u = .raise e v := by
  cases r with
  | ok a u => exact .inr ⟨a, u, rfl, h⟩
  | raise e' v' => exact .inl (by simpa [Res.bind] using h)

namespace State

/-! ## SameCore -/

namespace SameCore

theorem refl (s : State) : SameCore s s := ⟨rfl, rfl, rfl, rfl, rfl, rfl, rfl, rfl, rfl, rfl, rfl, rfl, rfl⟩

theorem trans {s t u : State} (h : SameCore s t) (k : SameCore t u) : SameCore s u :=
  ⟨k.cfg.trans h.cfg, k.x.trans h.x, k.f.trans h.f, k.pc.trans h.pc, k.priv.trans h.priv, k.csr.trans h.csr,
    k.resv.trans h.resv, k.lines.trans h.lines, k.inputs.trans h.inputs, k.waiting.trans h.waiting,
    k.atBoundary.trans h.atBoundary, k.exact.trans h.exact, k.uarch.trans h.uarch⟩

theorem readX {s t : State} (h : SameCore s t) (r : Reg) : t.readX r = s.readX r := readX_eq_of_x h.x r
theorem readF {s t : State} (h : SameCore s t) (r : Reg) : t.readF r = s.readF r := readF_eq_of_f h.f r

end SameCore

/-- The part of the invariant that accesses to memory must keep. -/
structure MemOk (s : State) : Prop where
  memWf       : Memory.wf s.mem
  memInRam    : ∀ c ∈ s.mem, inRam s.cfg c.1 1 = true
  itlbBounded : s.itlb.length ≤ s.cfg.tlbSize
  dtlbBounded : s.dtlb.length ≤ s.cfg.tlbSize

theorem Inv.memOk {s : State} (h : s.Inv) : MemOk s := ⟨h.memWf, h.memInRam, h.itlbBounded, h.dtlbBounded⟩

/-- An access that changes nothing but what accesses may change, and keeps memory and TLBs in form, keeps the invariant. -/
theorem Inv.of_sameCore {s t : State} (h : s.Inv) (c : SameCore s t) (m : MemOk t) : t.Inv where
  memWf := m.memWf
  memInRam := m.memInRam
  pcEven := by rw [c.pc]; exact h.pcEven
  mepcEven := by rw [c.csr]; exact h.mepcEven
  sepcEven := by rw [c.csr]; exact h.sepcEven
  mtvecLegal := by rw [c.csr]; exact h.mtvecLegal
  stvecLegal := by rw [c.csr]; exact h.stvecLegal
  satpLegal := by rw [c.csr]; exact h.satpLegal
  medelegMasked := by rw [c.csr]; exact h.medelegMasked
  midelegMasked := by rw [c.csr]; exact h.midelegMasked
  mieMasked := by rw [c.csr]; exact h.mieMasked
  itlbBounded := m.itlbBounded
  dtlbBounded := m.dtlbBounded
  resvAligned := by
    intro g hg
    rw [c.resv] at hg
    have := h.resvAligned g hg
    unfold granule at *
    rw [c.cfg]
    exact this

/-! ## RAM writes -/

theorem sameCore_writeRam (s : State) (a n : Nat) (v : Word) : SameCore s (s.writeRam a n v) :=
  ⟨rfl, rfl, rfl, rfl, rfl, rfl, rfl, rfl, rfl, rfl, rfl, rfl, rfl⟩

/-- A RAM write changes only the memory and the logs of what was overwritten. -/
theorem writeRam_rest (s : State) (a n : Nat) (v : Word) :
    (s.writeRam a n v).itlb = s.itlb ∧ (s.writeRam a n v).dtlb = s.dtlb ∧ (s.writeRam a n v).clint = s.clint ∧
      (s.writeRam a n v).plic = s.plic ∧ (s.writeRam a n v).devLog = s.devLog ∧ (s.writeRam a n v).draws = s.draws ∧
      (s.writeRam a n v).lineLag = s.lineLag ∧ (s.writeRam a n v).ended = s.ended :=
  ⟨rfl, rfl, rfl, rfl, rfl, rfl, rfl, rfl⟩

/-! ## The bus -/

theorem ownerOf_ram {c : Config} {a n : Nat} (h : inRam c a n = true) (hn : 0 < n) : ownerOf c a = some .ram := by
  unfold inRam at h
  simp at h
  have : holds c.ramBase c.ramSize a = true := by
    simp [holds]
    omega
  simp [ownerOf, this]

/-- A read of RAM gives the bytes and changes nothing (R171, R172). -/
theorem busRead_ram {s : State} {pa : Word} {n : Nat} (h : inRam s.cfg pa.toNat n = true) (hn : 0 < n) :
    s.busRead pa n = some (s.ramValue pa.toNat n, s) := by
  simp [busRead, ownerOf_ram h hn, h]

/-- A write of RAM writes the bytes. -/
theorem busWrite_ram {s : State} {pa : Word} {n : Nat} (v : Word) (h : inRam s.cfg pa.toNat n = true) (hn : 0 < n) :
    s.busWrite pa n v = some (s.writeRam pa.toNat n v) := by
  simp [busWrite, ownerOf_ram h hn, h]

theorem sameCore_deviceRead (s : State) (d : Device) (off n : Nat) : SameCore s (s.deviceRead d off n).2 := by
  unfold deviceRead deviceAnswer
  cases d <;> exact ⟨rfl, rfl, rfl, rfl, rfl, rfl, rfl, rfl, rfl, rfl, rfl, rfl, rfl⟩

theorem deviceRead_rest (s : State) (d : Device) (off n : Nat) :
    (s.deviceRead d off n).2.mem = s.mem ∧ (s.deviceRead d off n).2.itlb = s.itlb ∧
      (s.deviceRead d off n).2.dtlb = s.dtlb ∧ (s.deviceRead d off n).2.fetchLog = s.fetchLog ∧
      (s.deviceRead d off n).2.walkLog = s.walkLog ∧ (s.deviceRead d off n).2.ended = s.ended ∧
      (s.deviceRead d off n).2.clint = s.clint := by
  unfold deviceRead deviceAnswer
  cases d <;> simp

theorem sameCore_deviceEffect (s : State) (d : Device) (off n : Nat) (v : Word) :
    SameCore s (s.deviceEffect d off n v) := by
  have r : SameCore s s := .refl s
  unfold deviceEffect
  split
  · exact ⟨rfl, rfl, rfl, rfl, rfl, rfl, rfl, rfl, rfl, rfl, rfl, rfl, rfl⟩
  · exact ⟨rfl, rfl, rfl, rfl, rfl, rfl, rfl, rfl, rfl, rfl, rfl, rfl, rfl⟩
  · split
    · split
      · exact ⟨rfl, rfl, rfl, rfl, rfl, rfl, rfl, rfl, rfl, rfl, rfl, rfl, rfl⟩
      · split
        · exact ⟨rfl, rfl, rfl, rfl, rfl, rfl, rfl, rfl, rfl, rfl, rfl, rfl, rfl⟩
        · exact r
    · exact r
  · exact r

theorem sameCore_deviceWrite (s : State) (d : Device) (off n : Nat) (v : Word) :
    SameCore s (s.deviceWrite d off n v) := by
  have h := sameCore_deviceEffect s d off n v
  exact ⟨h.cfg, h.x, h.f, h.pc, h.priv, h.csr, h.resv, h.lines, h.inputs, h.waiting, h.atBoundary,
    h.exact, h.uarch⟩

theorem deviceWrite_rest (s : State) (d : Device) (off n : Nat) (v : Word) :
    (s.deviceWrite d off n v).mem = s.mem ∧ (s.deviceWrite d off n v).itlb = s.itlb ∧
      (s.deviceWrite d off n v).dtlb = s.dtlb ∧ (s.deviceWrite d off n v).fetchLog = s.fetchLog ∧
      (s.deviceWrite d off n v).walkLog = s.walkLog ∧ (s.deviceWrite d off n v).draws = s.draws := by
  show (s.deviceEffect d off n v).mem = _ ∧ (s.deviceEffect d off n v).itlb = _ ∧ (s.deviceEffect d off n v).dtlb = _ ∧
    (s.deviceEffect d off n v).fetchLog = _ ∧ (s.deviceEffect d off n v).walkLog = _ ∧
    (s.deviceEffect d off n v).draws = _
  unfold deviceEffect
  split
  · simp
  · simp
  · split
    · split
      · simp
      · split <;> simp
    · simp
  · simp

/-- Everything a bus read can do: no answer; or the bytes of RAM and no change; or a device's answer, which changes no RAM. -/
theorem busRead_cases {s : State} {pa : Word} {n : Nat} {r : Word × State} (h : s.busRead pa n = some r) :
    (inRam s.cfg pa.toNat n = true ∧ r = (s.ramValue pa.toNat n, s)) ∨
      ∃ d range, ownerOf s.cfg pa.toNat = some (.device d range) ∧ accepts range pa.toNat n = true ∧
        r = s.deviceRead d (pa.toNat - range.base) n := by
  unfold busRead at h
  split at h
  · cases h
  · split at h
    · exact .inl ⟨‹_›, by simpa using h.symm⟩
    · cases h
  · rename_i d range ho
    split at h
    · exact .inr ⟨d, range, ho, ‹_›, by simpa using h.symm⟩
    · cases h

/-- Everything a bus write can do: no answer; or bytes of RAM written; or a device's effect, which changes no RAM. -/
theorem busWrite_cases {s t : State} {pa : Word} {n : Nat} {v : Word} (h : s.busWrite pa n v = some t) :
    (inRam s.cfg pa.toNat n = true ∧ t = s.writeRam pa.toNat n v) ∨
      ∃ d range, ownerOf s.cfg pa.toNat = some (.device d range) ∧ accepts range pa.toNat n = true ∧
        t = s.deviceWrite d (pa.toNat - range.base) n v := by
  unfold busWrite at h
  split at h
  · cases h
  · split at h
    · exact .inl ⟨‹_›, by simpa using h.symm⟩
    · cases h
  · rename_i d range ho
    split at h
    · exact .inr ⟨d, range, ho, ‹_›, by simpa using h.symm⟩
    · cases h

theorem sameCore_busRead {s : State} {pa : Word} {n : Nat} {v : Word} {t : State} (h : s.busRead pa n = some (v, t)) :
    SameCore s t := by
  rcases busRead_cases h with ⟨_, h⟩ | ⟨d, r, _, _, h⟩
  · cases h; exact .refl s
  · have : t = (s.deviceRead d (pa.toNat - r.base) n).2 := congrArg Prod.snd h
    rw [this]; exact sameCore_deviceRead ..

theorem busRead_rest {s : State} {pa : Word} {n : Nat} {v : Word} {t : State} (h : s.busRead pa n = some (v, t)) :
    t.mem = s.mem ∧ t.itlb = s.itlb ∧ t.dtlb = s.dtlb ∧ t.fetchLog = s.fetchLog ∧ t.walkLog = s.walkLog ∧
      t.ended = s.ended ∧ t.clint = s.clint := by
  rcases busRead_cases h with ⟨_, h⟩ | ⟨d, r, _, _, h⟩
  · cases h; simp
  · have : t = (s.deviceRead d (pa.toNat - r.base) n).2 := congrArg Prod.snd h
    rw [this]; exact deviceRead_rest ..

theorem sameCore_busWrite {s t : State} {pa : Word} {n : Nat} {v : Word} (h : s.busWrite pa n v = some t) :
    SameCore s t := by
  rcases busWrite_cases h with ⟨_, rfl⟩ | ⟨d, r, _, _, rfl⟩
  · exact sameCore_writeRam ..
  · exact sameCore_deviceWrite ..

theorem busWrite_tlbs {s t : State} {pa : Word} {n : Nat} {v : Word} (h : s.busWrite pa n v = some t) :
    t.itlb = s.itlb ∧ t.dtlb = s.dtlb := by
  rcases busWrite_cases h with ⟨_, rfl⟩ | ⟨d, r, _, _, rfl⟩
  · have := writeRam_rest s pa.toNat n v
    exact ⟨this.1, this.2.1⟩
  · have := deviceWrite_rest s d (pa.toNat - r.base) n v
    exact ⟨this.2.1, this.2.2.1⟩

/-- A bus write changes no byte of RAM outside the n bytes at pa. -/
theorem byteAt_busWrite_outside {s t : State} {pa : Word} {n : Nat} {v : Word} (h : s.busWrite pa n v = some t)
    {k : Nat} (hk : k < pa.toNat ∨ pa.toNat + n ≤ k) : t.byteAt k = s.byteAt k := by
  rcases busWrite_cases h with ⟨_, rfl⟩ | ⟨d, r, _, _, rfl⟩
  · exact byteAt_writeRam_outside _ _ _ _ hk
  · exact byteAt_eq_of_mem (deviceWrite_rest ..).1 k

theorem MemOk.busRead {s : State} (m : MemOk s) {pa : Word} {n : Nat} {v : Word} {t : State}
    (h : s.busRead pa n = some (v, t)) : MemOk t := by
  have c := sameCore_busRead h
  obtain ⟨h1, h2, h3, -⟩ := busRead_rest h
  exact ⟨h1 ▸ m.memWf, by rw [h1, c.cfg]; exact m.memInRam, by rw [h2, c.cfg]; exact m.itlbBounded,
    by rw [h3, c.cfg]; exact m.dtlbBounded⟩

theorem MemOk.busWrite {s t : State} (m : MemOk s) {pa : Word} {n : Nat} {v : Word} (h : s.busWrite pa n v = some t) :
    MemOk t := by
  have c := sameCore_busWrite h
  obtain ⟨hi, hd⟩ := busWrite_tlbs h
  have hb : t.itlb.length ≤ t.cfg.tlbSize ∧ t.dtlb.length ≤ t.cfg.tlbSize := by
    rw [hi, hd, c.cfg]; exact ⟨m.itlbBounded, m.dtlbBounded⟩
  rcases busWrite_cases h with ⟨hr, rfl⟩ | ⟨d, r, _, _, rfl⟩
  · refine ⟨mem_writeRam_wf _ _ _ _ m.memWf, ?_, hb.1, hb.2⟩
    intro k hk
    rw [c.cfg]
    rcases mem_writeRam_cells _ _ _ _ hk with hk | hk
    · unfold inRam at *
      simp at *
      omega
    · exact m.memInRam k hk
  · have hm := (deviceWrite_rest s d (pa.toNat - r.base) n v).1
    exact ⟨hm ▸ m.memWf, by rw [hm, c.cfg]; exact m.memInRam, hb.1, hb.2⟩

/-! ## The walk and translation -/

theorem MemOk.useDraw {s : State} (m : MemOk s) : MemOk s.useDraw := ⟨m.memWf, m.memInRam, m.itlbBounded, m.dtlbBounded⟩

theorem sameCore_useDraw (s : State) : SameCore s s.useDraw := ⟨rfl, rfl, rfl, rfl, rfl, rfl, rfl, rfl, rfl, rfl, rfl, rfl, rfl⟩

theorem sameCore_setTlb (s : State) (acc : Access) (l : List TlbEntry) : SameCore s (s.setTlb acc l) := by
  cases acc <;> exact ⟨rfl, rfl, rfl, rfl, rfl, rfl, rfl, rfl, rfl, rfl, rfl, rfl, rfl⟩

theorem MemOk.setTlb {s : State} (m : MemOk s) (acc : Access) {l : List TlbEntry} (h : l.length ≤ s.cfg.tlbSize) :
    MemOk (s.setTlb acc l) := by
  cases acc
  · exact ⟨m.memWf, m.memInRam, h, m.dtlbBounded⟩
  · exact ⟨m.memWf, m.memInRam, m.itlbBounded, h⟩
  · exact ⟨m.memWf, m.memInRam, m.itlbBounded, h⟩

theorem MemOk.tlb {s : State} (m : MemOk s) (acc : Access) : (s.tlb acc).length ≤ s.cfg.tlbSize := by
  cases acc
  · exact m.itlbBounded
  · exact m.dtlbBounded
  · exact m.dtlbBounded

theorem sameCore_fill (s : State) (acc : Access) (va : Word) (e : TlbEntry) : SameCore s (s.fill acc va e) :=
  sameCore_setTlb ..

theorem MemOk.fill {s : State} (m : MemOk s) (acc : Access) (va : Word) (e : TlbEntry) : MemOk (s.fill acc va e) :=
  m.setTlb acc (by simp [List.length_take])

/-- A PTE read changes no RAM, no TLB and no register. -/
theorem readPte_some {s : State} {k : Nat} {pa : Word} {v : Word} {t : State} (h : s.readPte k pa = some (v, t)) :
    SameCore s t ∧ t.mem = s.mem ∧ t.itlb = s.itlb ∧ t.dtlb = s.dtlb ∧ t.fetchLog = s.fetchLog ∧
      t.walkLog = s.walkLog ∧ t.ended = s.ended ∧ t.clint = s.clint := by
  unfold readPte at h
  split at h
  · simp at h
    obtain ⟨-, rfl⟩ := h
    exact ⟨.refl s, by simp⟩
  · exact ⟨sameCore_busRead h, busRead_rest h⟩

/-- A walk changes no RAM, no TLB and no register: it only reads. -/
theorem walkFrom_frame (s : State) (k : Nat) (acc : Access) (p : Priv) (va a : Word) (i : Nat) :
    SameCore s (s.walkFrom k acc p va a i).2 ∧ (s.walkFrom k acc p va a i).2.mem = s.mem ∧
      (s.walkFrom k acc p va a i).2.itlb = s.itlb ∧ (s.walkFrom k acc p va a i).2.dtlb = s.dtlb ∧
      (s.walkFrom k acc p va a i).2.fetchLog = s.fetchLog ∧ (s.walkFrom k acc p va a i).2.walkLog = s.walkLog ∧
      (s.walkFrom k acc p va a i).2.ended = s.ended ∧ (s.walkFrom k acc p va a i).2.clint = s.clint := by
  induction i generalizing s a with
  | zero =>
    cases hr : s.readPte k (a + ((vpnPart va 0).setWidth 64 <<< 3)) with
    | none => unfold walkFrom; simp only [hr]; exact ⟨.refl s, by simp⟩
    | some r =>
      have := readPte_some (v := r.1) (t := r.2) hr
      unfold walkFrom
      simp only [hr]
      repeat' split
      all_goals exact this
  | succ j ih =>
    cases hr : s.readPte k (a + ((vpnPart va (j + 1)).setWidth 64 <<< 3)) with
    | none => unfold walkFrom; simp only [hr]; exact ⟨.refl s, by simp⟩
    | some r =>
      have := readPte_some (v := r.1) (t := r.2) hr
      unfold walkFrom
      simp only [hr]
      split
      · exact this
      · split
        · obtain ⟨h0, h1, h2, h3, h4, h5, h6, h7⟩ := this
          obtain ⟨k0, k1, k2, k3, k4, k5, k6, k7⟩ := ih r.2 ((Pte.ppn r.1).setWidth 64 <<< 12)
          exact ⟨h0.trans k0, k1.trans h1, k2.trans h2, k3.trans h3, k4.trans h4, k5.trans h5, k6.trans h6, k7.trans h7⟩
        · split
          · exact this
          · split <;> exact this

/-- What a memory access that goes on keeps. -/
structure Kept (s t : State) : Prop where
  same : SameCore s t
  ok   : MemOk s → MemOk t

theorem Kept.refl (s : State) : Kept s s := ⟨.refl s, id⟩
theorem Kept.trans {s t u : State} (h : Kept s t) (k : Kept t u) : Kept s u := ⟨h.same.trans k.same, k.ok ∘ h.ok⟩

theorem kept_useDraw (s : State) : Kept s s.useDraw := ⟨sameCore_useDraw s, MemOk.useDraw⟩
theorem kept_fill (s : State) (acc : Access) (va : Word) (e : TlbEntry) : Kept s (s.fill acc va e) :=
  ⟨sameCore_fill .., fun m => m.fill ..⟩
theorem kept_busRead {s : State} {pa : Word} {n : Nat} {v : Word} {t : State} (h : s.busRead pa n = some (v, t)) :
    Kept s t := ⟨sameCore_busRead h, fun m => m.busRead h⟩
theorem kept_busWrite {s t : State} {pa : Word} {n : Nat} {v : Word} (h : s.busWrite pa n v = some t) : Kept s t :=
  ⟨sameCore_busWrite h, fun m => m.busWrite h⟩

/-- An A and D update is the bus write of the PTE with the end of the run as it was. -/
theorem updatePte_some {s t : State} {pa v : Word} (h : s.updatePte pa v = some t) :
    ∃ u, s.busWrite pa 8 v = some u ∧ t = { u with ended := s.ended } := by
  simpa [updatePte, eq_comm] using h

theorem kept_updatePte {s t : State} {pa v : Word} (h : s.updatePte pa v = some t) : Kept s t := by
  obtain ⟨u, hu, rfl⟩ := updatePte_some h
  have k := kept_busWrite hu
  exact ⟨k.same.trans (by constructor <;> rfl), fun m => { k.ok m with }⟩

theorem kept_walkFrom (s : State) (k : Nat) (acc : Access) (p : Priv) (va a : Word) (i : Nat) :
    Kept s (s.walkFrom k acc p va a i).2 := by
  obtain ⟨h0, h1, h2, h3, -⟩ := walkFrom_frame s k acc p va a i
  exact ⟨h0, fun m => ⟨h1 ▸ m.memWf, by rw [h1, h0.cfg]; exact m.memInRam, by rw [h2, h0.cfg]; exact m.itlbBounded,
    by rw [h3, h0.cfg]; exact m.dtlbBounded⟩⟩

theorem kept_of_walkFrom {s : State} {k : Nat} {acc : Access} {p : Priv} {va a : Word} {i : Nat} {w : Walk} {t : State}
    (h : s.walkFrom k acc p va a i = (w, t)) : Kept s t := by
  have := kept_walkFrom s k acc p va a i
  rwa [h] at this

theorem kept_walk {s : State} {acc : Access} {p : Priv} {va pa : Word} {t : State} (h : s.walk acc p va = .ok pa t) :
    Kept s t := by
  unfold walk at h
  split at h
  · cases h
  · cases h
  · rename_i hw
    have k := kept_of_walkFrom hw
    dsimp only at h
    split at h
    · cases h
      exact k.trans (kept_fill ..)
    · split at h
      · cases h
      · rename_i hb
        cases h
        exact k.trans ((kept_updatePte hb).trans (kept_fill ..))

/-- An earlier leaf is what a walk of S- or U-mode finds. -/
theorem earlierLeaf_eq (s : State) (k : Nat) (va root : Word) :
    s.earlierLeaf k va root = s.walkFrom k .fetch .S va root 2 ∨ s.earlierLeaf k va root = s.walkFrom k .fetch .U va root 2 := by
  unfold earlierLeaf
  split
  · exact .inl (by simp [*])
  · exact .inr rfl

theorem kept_earlierWalk {s : State} {n : Nat} {p : Priv} {va pa : Word} {t : State}
    (h : s.earlierWalk n p va = some (.ok pa t)) : Kept s t := by
  unfold earlierWalk at h
  dsimp only at h
  split at h
  · cases h
  · split at h
    · split at h <;> cases h
    · split at h <;> cases h
    · rename_i hw
      have k := (earlierLeaf_eq ..).elim (fun e => kept_of_walkFrom (e ▸ hw)) (fun e => kept_of_walkFrom (e ▸ hw))
      split at h
      · cases h
      · split at h
        · cases h
        · simp only [Option.some.injEq, Res.ok.injEq] at h
          obtain ⟨-, rfl⟩ := h
          refine k.trans (.trans ?_ (kept_fill ..))
          split
          · rename_i t _ _ _
            cases hb : t.updatePte _ (markedPte .fetch _) with
            | none => exact .refl _
            | some u => exact kept_updatePte hb
          · exact .refl _

theorem kept_miss {s : State} {acc : Access} {p : Priv} {va pa : Word} {t : State} (h : s.miss acc p va = .ok pa t) :
    Kept s t := by
  unfold miss at h
  split at h
  · split at h
    · rename_i he
      subst h
      exact (kept_useDraw s).trans (kept_earlierWalk he)
    · exact (kept_useDraw s).trans (kept_walk h)
  · exact kept_walk h

theorem survivors_length (draw : Nat) (va : Word) (asid : BitVec 16) (k : Nat) (l : List TlbEntry) :
    (survivors draw va asid k l).length ≤ l.length := by
  induction l generalizing k with
  | nil => simp [survivors]
  | cons e es ih =>
    unfold survivors
    have := ih (k + 1)
    split
    · simp; omega
    · simp; omega

theorem entries_length (s : State) (acc : Access) (va : Word) : (s.entries acc va).length ≤ (s.tlb acc).length := by
  unfold entries
  split
  · exact le_rfl
  · exact survivors_length ..

/-- Translation changes TLBs, PTE bits and the free values' index, and nothing else of the core. -/
theorem kept_translate {s : State} {acc : Access} {va pa : Word} {t : State} (h : s.translate acc va = .ok pa t) :
    Kept s t := by
  unfold translate at h
  simp only at h
  split at h
  · cases h; exact .refl s
  · split at h
    · cases h
    · have k0 : Kept s (s.setTlb acc (s.entries acc va)).useDraw :=
        ⟨(sameCore_setTlb ..).trans (sameCore_useDraw _), fun m =>
          (m.setTlb acc ((entries_length ..).trans (m.tlb acc))).useDraw⟩
      split at h
      · exact k0.trans (kept_miss h)
      · rename_i e he
        split at h
        · cases h
        · split at h
          · exact k0.trans (kept_miss h)
          · cases h
            refine k0.trans ⟨sameCore_setTlb .., fun m => m.setTlb acc ?_⟩
            have hm : e ∈ s.entries acc va := List.mem_of_find?_eq_some he
            have hl : (e :: (s.entries acc va).erase e).length =
                (s.entries acc va).length := by
              rw [List.length_cons, List.length_erase_of_mem hm]
              have := List.length_pos_of_mem hm
              omega
            rw [hl]
            have : ((s.setTlb acc (s.entries acc va)).useDraw.tlb acc) =
                s.entries acc va := by cases acc <;> rfl
            have hb := m.tlb acc
            rwa [this] at hb

/-- With translation off (Bare, or M-mode without MPRV translation), the address is the physical address (R151, R230). -/
theorem translate_off {s : State} {acc : Access} (va : Word) (h : satpMode s.csr.satp = 0#4 ∨ s.effPriv acc = .M) :
    s.translate acc va = .ok va s := by
  unfold translate
  simp [h]

/-! ## The data access primitives -/

theorem memRead_ok {s : State} {va : Word} {n : Nat} {v pa : Word} {t : State} (h : s.memRead va n = .ok (v, pa) t) :
    isAligned va n = true ∧ ∃ u, s.translate .load va = .ok pa u ∧ u.busRead pa n = some (v, t) := by
  unfold memRead at h
  split at h
  · cases h
  · rename_i ha
    refine ⟨by simpa using ha, ?_⟩
    obtain ⟨pa', u, ht, h⟩ := Res.bind_ok h
    split at h
    · cases h
    · rename_i hb
      cases h
      exact ⟨u, ht, hb⟩

theorem kept_memRead {s : State} {va : Word} {n : Nat} {r : Word × Word} {t : State} (h : s.memRead va n = .ok r t) :
    Kept s t := by
  obtain ⟨-, u, h1, h2⟩ := memRead_ok (v := r.1) (pa := r.2) h
  exact (kept_translate h1).trans (kept_busRead h2)

theorem memWrite_ok {s : State} {va : Word} {n : Nat} {v : Word} {t : State} (h : s.memWrite va n v = .ok () t) :
    isAligned va n = true ∧ ∃ pa u, s.translate .store va = .ok pa u ∧ u.busWrite pa n v = some t := by
  unfold memWrite at h
  split at h
  · cases h
  · rename_i ha
    refine ⟨by simpa using ha, ?_⟩
    obtain ⟨pa, u, ht, h⟩ := Res.bind_ok h
    · split at h
      · cases h
      · rename_i hb
        cases h
        exact ⟨pa, u, ht, hb⟩

theorem kept_memWrite {s : State} {va : Word} {n : Nat} {v : Word} {t : State} (h : s.memWrite va n v = .ok () t) :
    Kept s t := by
  obtain ⟨-, pa, u, h1, h2⟩ := memWrite_ok h
  exact (kept_translate h1).trans (kept_busWrite h2)

theorem memAmo_ok {s : State} {va : Word} {n : Nat} {f : Word → Word} {v : Word} {t : State}
    (h : s.memAmo va n f = .ok v t) :
    isAligned va n = true ∧ ∃ pa u w, s.translate .store va = .ok pa u ∧ u.busRead pa n = some (v, w) ∧
      w.busWrite pa n (f v) = some t := by
  unfold memAmo at h
  split at h
  · cases h
  · rename_i ha
    refine ⟨by simpa using ha, ?_⟩
    obtain ⟨pa, u, ht, h⟩ := Res.bind_ok h
    · split at h
      · cases h
      · rename_i w hb
        split at h
        · cases h
        · rename_i hw
          cases h
          exact ⟨pa, u, w, ht, hb, hw⟩

theorem kept_memAmo {s : State} {va : Word} {n : Nat} {f : Word → Word} {v : Word} {t : State}
    (h : s.memAmo va n f = .ok v t) : Kept s t := by
  obtain ⟨-, pa, u, w, h1, h2, h3⟩ := memAmo_ok h
  exact (kept_translate h1).trans ((kept_busRead h2).trans (kept_busWrite h3))

theorem kept_scAccess {s : State} {a : Word} {n : Nat} {v c : Word} {t : State} (h : s.scAccess a n v = .ok c t) :
    Kept s t := by
  unfold scAccess at h
  split at h
  · cases h
  · obtain ⟨pa, u, ht, h⟩ := Res.bind_ok h
    · have k := kept_translate ht
      split at h
      · split at h
        · cases h
        · rename_i hb
          cases h
          exact k.trans (kept_busWrite hb)
      · cases h
        exact k

/-- A misaligned access raises before translation (R181). -/
theorem memRead_misaligned {s : State} {va : Word} {n : Nat} (h : isAligned va n = false) :
    s.memRead va n = .raise .loadAddressMisaligned va := by simp [memRead, h]
theorem memWrite_misaligned {s : State} {va : Word} {n : Nat} {v : Word} (h : isAligned va n = false) :
    s.memWrite va n v = .raise .storeAddressMisaligned va := by simp [memWrite, h]
theorem memAmo_misaligned {s : State} {va : Word} {n : Nat} {f : Word → Word} (h : isAligned va n = false) :
    s.memAmo va n f = .raise .storeAddressMisaligned va := by simp [memAmo, h]
theorem scAccess_misaligned {s : State} {va : Word} {n : Nat} {v : Word} (h : isAligned va n = false) :
    s.scAccess va n v = .raise .storeAddressMisaligned va := by simp [scAccess, h]

end State
end Sys2Proof.Machine
end

