-- ==== Sys2Proof/Laws/Encoding.lean ====
section
/-! SUPPORT. The fields of an encoded word are the fields it was built from, and a word is what its fields build; the same
for the immediates. The round trips of decoding and encoding need nothing else. -/
namespace Sys2Proof
open InstrField

-- One lemma at a time: in parallel, lemmas that wait for one another each hold a thread with its stack.
set_option Elab.async false

/-! Fields of each 32-bit format -/

section Fields
variable (f7 : BitVec 7) (r1 r2 r3 d : Reg) (f3 : BitVec 3) (op : BitVec 7) (f2 : BitVec 2) (i12 : BitVec 12)
  (i20 : BitVec 20) (f6 sh : BitVec 6) (f5 : BitVec 5) (a l : BitVec 1) (m p s : BitVec 4) (w : BitVec 32)

@[simp] theorem funct7_rType : funct7 (rType f7 r2 r1 f3 d op) = f7 := by
  simp only [funct7, rType, BitVec.extractLsb'_append_eq_ite]; simp
@[simp] theorem rs2_rType : rs2 (rType f7 r2 r1 f3 d op) = r2 := by
  simp only [rs2, rType, BitVec.extractLsb'_append_eq_ite]; simp
@[simp] theorem rs1_rType : rs1 (rType f7 r2 r1 f3 d op) = r1 := by
  simp only [rs1, rType, BitVec.extractLsb'_append_eq_ite]; simp
@[simp] theorem funct3_rType : funct3 (rType f7 r2 r1 f3 d op) = f3 := by
  simp only [funct3, rType, BitVec.extractLsb'_append_eq_ite]; simp
@[simp] theorem rd_rType : rd (rType f7 r2 r1 f3 d op) = d := by
  simp only [rd, rType, BitVec.extractLsb'_append_eq_ite]; simp
@[simp] theorem opcode_rType : opcode (rType f7 r2 r1 f3 d op) = op := by
  simp only [opcode, rType, BitVec.extractLsb'_append_eq_ite]; simp
theorem rType_fields : rType (funct7 w) (rs2 w) (rs1 w) (funct3 w) (rd w) (opcode w) = w := by
  ext i hi
  simp only [rType, funct7, rs2, rs1, funct3, rd, opcode]
  grind
@[simp] theorem rs3_r4Type : rs3 (r4Type r3 f2 r2 r1 f3 d op) = r3 := by
  simp only [rs3, r4Type, BitVec.extractLsb'_append_eq_ite]; simp
@[simp] theorem fmt_r4Type : fmt (r4Type r3 f2 r2 r1 f3 d op) = f2 := by
  simp only [fmt, r4Type, BitVec.extractLsb'_append_eq_ite]; simp
@[simp] theorem rs2_r4Type : rs2 (r4Type r3 f2 r2 r1 f3 d op) = r2 := by
  simp only [rs2, r4Type, BitVec.extractLsb'_append_eq_ite]; simp
@[simp] theorem rs1_r4Type : rs1 (r4Type r3 f2 r2 r1 f3 d op) = r1 := by
  simp only [rs1, r4Type, BitVec.extractLsb'_append_eq_ite]; simp
@[simp] theorem funct3_r4Type : funct3 (r4Type r3 f2 r2 r1 f3 d op) = f3 := by
  simp only [funct3, r4Type, BitVec.extractLsb'_append_eq_ite]; simp
@[simp] theorem rd_r4Type : rd (r4Type r3 f2 r2 r1 f3 d op) = d := by
  simp only [rd, r4Type, BitVec.extractLsb'_append_eq_ite]; simp
@[simp] theorem opcode_r4Type : opcode (r4Type r3 f2 r2 r1 f3 d op) = op := by
  simp only [opcode, r4Type, BitVec.extractLsb'_append_eq_ite]; simp
theorem r4Type_fields : r4Type (rs3 w) (fmt w) (rs2 w) (rs1 w) (funct3 w) (rd w) (opcode w) = w := by
  ext i hi
  simp only [r4Type, rs3, fmt, rs2, rs1, funct3, rd, opcode]
  grind
@[simp] theorem immI_iType : immI (iType i12 r1 f3 d op) = i12 := by
  simp only [immI, iType, BitVec.extractLsb'_append_eq_ite]; simp
@[simp] theorem rs1_iType : rs1 (iType i12 r1 f3 d op) = r1 := by
  simp only [rs1, iType, BitVec.extractLsb'_append_eq_ite]; simp
@[simp] theorem funct3_iType : funct3 (iType i12 r1 f3 d op) = f3 := by
  simp only [funct3, iType, BitVec.extractLsb'_append_eq_ite]; simp
@[simp] theorem rd_iType : rd (iType i12 r1 f3 d op) = d := by
  simp only [rd, iType, BitVec.extractLsb'_append_eq_ite]; simp
@[simp] theorem opcode_iType : opcode (iType i12 r1 f3 d op) = op := by
  simp only [opcode, iType, BitVec.extractLsb'_append_eq_ite]; simp
theorem iType_fields : iType (immI w) (rs1 w) (funct3 w) (rd w) (opcode w) = w := by
  ext i hi
  simp only [iType, immI, rs1, funct3, rd, opcode]
  grind
@[simp] theorem immU_uType : immU (uType i20 d op) = i20 := by
  simp only [immU, uType, BitVec.extractLsb'_append_eq_ite]; simp
@[simp] theorem rd_uType : rd (uType i20 d op) = d := by
  simp only [rd, uType, BitVec.extractLsb'_append_eq_ite]; simp
@[simp] theorem opcode_uType : opcode (uType i20 d op) = op := by
  simp only [opcode, uType, BitVec.extractLsb'_append_eq_ite]; simp
theorem uType_fields : uType (immU w) (rd w) (opcode w) = w := by
  ext i hi
  simp only [uType, immU, rd, opcode]
  grind
@[simp] theorem funct6_shType : funct6 (shType f6 sh r1 f3 d op) = f6 := by
  simp only [funct6, shType, BitVec.extractLsb'_append_eq_ite]; simp
@[simp] theorem shamt6_shType : shamt6 (shType f6 sh r1 f3 d op) = sh := by
  simp only [shamt6, shType, BitVec.extractLsb'_append_eq_ite]; simp
@[simp] theorem rs1_shType : rs1 (shType f6 sh r1 f3 d op) = r1 := by
  simp only [rs1, shType, BitVec.extractLsb'_append_eq_ite]; simp
@[simp] theorem funct3_shType : funct3 (shType f6 sh r1 f3 d op) = f3 := by
  simp only [funct3, shType, BitVec.extractLsb'_append_eq_ite]; simp
@[simp] theorem rd_shType : rd (shType f6 sh r1 f3 d op) = d := by
  simp only [rd, shType, BitVec.extractLsb'_append_eq_ite]; simp
@[simp] theorem opcode_shType : opcode (shType f6 sh r1 f3 d op) = op := by
  simp only [opcode, shType, BitVec.extractLsb'_append_eq_ite]; simp
theorem shType_fields : shType (funct6 w) (shamt6 w) (rs1 w) (funct3 w) (rd w) (opcode w) = w := by
  ext i hi
  simp only [shType, funct6, shamt6, rs1, funct3, rd, opcode]
  grind
@[simp] theorem funct5_amoType : funct5 (amoType f5 a l r2 r1 f3 d op) = f5 := by
  simp only [funct5, amoType, BitVec.extractLsb'_append_eq_ite]; simp
@[simp] theorem aq_amoType : aq (amoType f5 a l r2 r1 f3 d op) = a := by
  simp only [aq, amoType, BitVec.extractLsb'_append_eq_ite]; simp
@[simp] theorem rl_amoType : rl (amoType f5 a l r2 r1 f3 d op) = l := by
  simp only [rl, amoType, BitVec.extractLsb'_append_eq_ite]; simp
@[simp] theorem rs2_amoType : rs2 (amoType f5 a l r2 r1 f3 d op) = r2 := by
  simp only [rs2, amoType, BitVec.extractLsb'_append_eq_ite]; simp
@[simp] theorem rs1_amoType : rs1 (amoType f5 a l r2 r1 f3 d op) = r1 := by
  simp only [rs1, amoType, BitVec.extractLsb'_append_eq_ite]; simp
@[simp] theorem funct3_amoType : funct3 (amoType f5 a l r2 r1 f3 d op) = f3 := by
  simp only [funct3, amoType, BitVec.extractLsb'_append_eq_ite]; simp
@[simp] theorem rd_amoType : rd (amoType f5 a l r2 r1 f3 d op) = d := by
  simp only [rd, amoType, BitVec.extractLsb'_append_eq_ite]; simp
@[simp] theorem opcode_amoType : opcode (amoType f5 a l r2 r1 f3 d op) = op := by
  simp only [opcode, amoType, BitVec.extractLsb'_append_eq_ite]; simp
theorem amoType_fields : amoType (funct5 w) (aq w) (rl w) (rs2 w) (rs1 w) (funct3 w) (rd w) (opcode w) = w := by
  ext i hi
  simp only [amoType, funct5, aq, rl, rs2, rs1, funct3, rd, opcode]
  grind
@[simp] theorem fm_fenceType : fm (fenceType m p s r1 f3 d op) = m := by
  simp only [fm, fenceType, BitVec.extractLsb'_append_eq_ite]; simp
@[simp] theorem pred_fenceType : pred (fenceType m p s r1 f3 d op) = p := by
  simp only [pred, fenceType, BitVec.extractLsb'_append_eq_ite]; simp
@[simp] theorem succ_fenceType : succ (fenceType m p s r1 f3 d op) = s := by
  simp only [succ, fenceType, BitVec.extractLsb'_append_eq_ite]; simp
@[simp] theorem rs1_fenceType : rs1 (fenceType m p s r1 f3 d op) = r1 := by
  simp only [rs1, fenceType, BitVec.extractLsb'_append_eq_ite]; simp
@[simp] theorem funct3_fenceType : funct3 (fenceType m p s r1 f3 d op) = f3 := by
  simp only [funct3, fenceType, BitVec.extractLsb'_append_eq_ite]; simp
@[simp] theorem rd_fenceType : rd (fenceType m p s r1 f3 d op) = d := by
  simp only [rd, fenceType, BitVec.extractLsb'_append_eq_ite]; simp
@[simp] theorem opcode_fenceType : opcode (fenceType m p s r1 f3 d op) = op := by
  simp only [opcode, fenceType, BitVec.extractLsb'_append_eq_ite]; simp
theorem fenceType_fields : fenceType (fm w) (pred w) (succ w) (rs1 w) (funct3 w) (rd w) (opcode w) = w := by
  ext i hi
  simp only [fenceType, fm, pred, succ, rs1, funct3, rd, opcode]
  grind

end Fields

/-! Fields of each 16-bit format -/

section CompressedFields
variable (c3 b3 x y : BitVec 3) (b1 : BitVec 1) (r b5 : BitVec 5) (q b2 g : BitVec 2) (b6 : BitVec 6) (b8 : BitVec 8)
  (b11 : BitVec 11) (p : BitVec 16)

@[simp] theorem cfunct3_ciType : cfunct3 (ciType c3 b1 r b5 q) = c3 := by
  simp only [cfunct3, ciType, BitVec.extractLsb'_append_eq_ite]; simp
@[simp] theorem c12_ciType : c12 (ciType c3 b1 r b5 q) = b1 := by
  simp only [c12, ciType, BitVec.extractLsb'_append_eq_ite]; simp
@[simp] theorem c11_7_ciType : c11_7 (ciType c3 b1 r b5 q) = r := by
  simp only [c11_7, ciType, BitVec.extractLsb'_append_eq_ite]; simp
@[simp] theorem c6_2_ciType : c6_2 (ciType c3 b1 r b5 q) = b5 := by
  simp only [c6_2, ciType, BitVec.extractLsb'_append_eq_ite]; simp
@[simp] theorem cquadrant_ciType : cquadrant (ciType c3 b1 r b5 q) = q := by
  simp only [cquadrant, ciType, BitVec.extractLsb'_append_eq_ite]; simp
theorem ciType_fields : ciType (cfunct3 p) (c12 p) (c11_7 p) (c6_2 p) (cquadrant p) = p := by
  ext i hi
  simp only [ciType, cfunct3, c12, c11_7, c6_2, cquadrant]
  grind
@[simp] theorem cfunct3_cssType : cfunct3 (cssType c3 b6 r q) = c3 := by
  simp only [cfunct3, cssType, BitVec.extractLsb'_append_eq_ite]; simp
@[simp] theorem c12_7_cssType : c12_7 (cssType c3 b6 r q) = b6 := by
  simp only [c12_7, cssType, BitVec.extractLsb'_append_eq_ite]; simp
@[simp] theorem c6_2_cssType : c6_2 (cssType c3 b6 r q) = r := by
  simp only [c6_2, cssType, BitVec.extractLsb'_append_eq_ite]; simp
@[simp] theorem cquadrant_cssType : cquadrant (cssType c3 b6 r q) = q := by
  simp only [cquadrant, cssType, BitVec.extractLsb'_append_eq_ite]; simp
theorem cssType_fields : cssType (cfunct3 p) (c12_7 p) (c6_2 p) (cquadrant p) = p := by
  ext i hi
  simp only [cssType, cfunct3, c12_7, c6_2, cquadrant]
  grind
@[simp] theorem cfunct3_ciwType : cfunct3 (ciwType c3 b8 x q) = c3 := by
  simp only [cfunct3, ciwType, BitVec.extractLsb'_append_eq_ite]; simp
@[simp] theorem c12_5_ciwType : c12_5 (ciwType c3 b8 x q) = b8 := by
  simp only [c12_5, ciwType, BitVec.extractLsb'_append_eq_ite]; simp
@[simp] theorem c4_2_ciwType : c4_2 (ciwType c3 b8 x q) = x := by
  simp only [c4_2, ciwType, BitVec.extractLsb'_append_eq_ite]; simp
@[simp] theorem cquadrant_ciwType : cquadrant (ciwType c3 b8 x q) = q := by
  simp only [cquadrant, ciwType, BitVec.extractLsb'_append_eq_ite]; simp
theorem ciwType_fields : ciwType (cfunct3 p) (c12_5 p) (c4_2 p) (cquadrant p) = p := by
  ext i hi
  simp only [ciwType, cfunct3, c12_5, c4_2, cquadrant]
  grind
@[simp] theorem cfunct3_clType : cfunct3 (clType c3 b3 x b2 y q) = c3 := by
  simp only [cfunct3, clType, BitVec.extractLsb'_append_eq_ite]; simp
@[simp] theorem c12_10_clType : c12_10 (clType c3 b3 x b2 y q) = b3 := by
  simp only [c12_10, clType, BitVec.extractLsb'_append_eq_ite]; simp
@[simp] theorem c9_7_clType : c9_7 (clType c3 b3 x b2 y q) = x := by
  simp only [c9_7, clType, BitVec.extractLsb'_append_eq_ite]; simp
@[simp] theorem c6_5_clType : c6_5 (clType c3 b3 x b2 y q) = b2 := by
  simp only [c6_5, clType, BitVec.extractLsb'_append_eq_ite]; simp
@[simp] theorem c4_2_clType : c4_2 (clType c3 b3 x b2 y q) = y := by
  simp only [c4_2, clType, BitVec.extractLsb'_append_eq_ite]; simp
@[simp] theorem cquadrant_clType : cquadrant (clType c3 b3 x b2 y q) = q := by
  simp only [cquadrant, clType, BitVec.extractLsb'_append_eq_ite]; simp
theorem clType_fields : clType (cfunct3 p) (c12_10 p) (c9_7 p) (c6_5 p) (c4_2 p) (cquadrant p) = p := by
  ext i hi
  simp only [clType, cfunct3, c12_10, c9_7, c6_5, c4_2, cquadrant]
  grind
@[simp] theorem cfunct3_caType : cfunct3 (caType c3 b1 g x b2 y q) = c3 := by
  simp only [cfunct3, caType, BitVec.extractLsb'_append_eq_ite]; simp
@[simp] theorem c12_caType : c12 (caType c3 b1 g x b2 y q) = b1 := by
  simp only [c12, caType, BitVec.extractLsb'_append_eq_ite]; simp
@[simp] theorem c11_10_caType : c11_10 (caType c3 b1 g x b2 y q) = g := by
  simp only [c11_10, caType, BitVec.extractLsb'_append_eq_ite]; simp
@[simp] theorem c9_7_caType : c9_7 (caType c3 b1 g x b2 y q) = x := by
  simp only [c9_7, caType, BitVec.extractLsb'_append_eq_ite]; simp
@[simp] theorem c6_5_caType : c6_5 (caType c3 b1 g x b2 y q) = b2 := by
  simp only [c6_5, caType, BitVec.extractLsb'_append_eq_ite]; simp
@[simp] theorem c4_2_caType : c4_2 (caType c3 b1 g x b2 y q) = y := by
  simp only [c4_2, caType, BitVec.extractLsb'_append_eq_ite]; simp
@[simp] theorem cquadrant_caType : cquadrant (caType c3 b1 g x b2 y q) = q := by
  simp only [cquadrant, caType, BitVec.extractLsb'_append_eq_ite]; simp
theorem caType_fields : caType (cfunct3 p) (c12 p) (c11_10 p) (c9_7 p) (c6_5 p) (c4_2 p) (cquadrant p) = p := by
  ext i hi
  simp only [caType, cfunct3, c12, c11_10, c9_7, c6_5, c4_2, cquadrant]
  grind
@[simp] theorem cfunct3_cbType : cfunct3 (cbType c3 b1 g x b5 q) = c3 := by
  simp only [cfunct3, cbType, BitVec.extractLsb'_append_eq_ite]; simp
@[simp] theorem c12_cbType : c12 (cbType c3 b1 g x b5 q) = b1 := by
  simp only [c12, cbType, BitVec.extractLsb'_append_eq_ite]; simp
@[simp] theorem c11_10_cbType : c11_10 (cbType c3 b1 g x b5 q) = g := by
  simp only [c11_10, cbType, BitVec.extractLsb'_append_eq_ite]; simp
@[simp] theorem c9_7_cbType : c9_7 (cbType c3 b1 g x b5 q) = x := by
  simp only [c9_7, cbType, BitVec.extractLsb'_append_eq_ite]; simp
@[simp] theorem c6_2_cbType : c6_2 (cbType c3 b1 g x b5 q) = b5 := by
  simp only [c6_2, cbType, BitVec.extractLsb'_append_eq_ite]; simp
@[simp] theorem cquadrant_cbType : cquadrant (cbType c3 b1 g x b5 q) = q := by
  simp only [cquadrant, cbType, BitVec.extractLsb'_append_eq_ite]; simp
theorem cbType_fields : cbType (cfunct3 p) (c12 p) (c11_10 p) (c9_7 p) (c6_2 p) (cquadrant p) = p := by
  ext i hi
  simp only [cbType, cfunct3, c12, c11_10, c9_7, c6_2, cquadrant]
  grind
@[simp] theorem cfunct3_cbrType : cfunct3 (cbrType c3 b3 x b5 q) = c3 := by
  simp only [cfunct3, cbrType, BitVec.extractLsb'_append_eq_ite]; simp
@[simp] theorem c12_10_cbrType : c12_10 (cbrType c3 b3 x b5 q) = b3 := by
  simp only [c12_10, cbrType, BitVec.extractLsb'_append_eq_ite]; simp
@[simp] theorem c9_7_cbrType : c9_7 (cbrType c3 b3 x b5 q) = x := by
  simp only [c9_7, cbrType, BitVec.extractLsb'_append_eq_ite]; simp
@[simp] theorem c6_2_cbrType : c6_2 (cbrType c3 b3 x b5 q) = b5 := by
  simp only [c6_2, cbrType, BitVec.extractLsb'_append_eq_ite]; simp
@[simp] theorem cquadrant_cbrType : cquadrant (cbrType c3 b3 x b5 q) = q := by
  simp only [cquadrant, cbrType, BitVec.extractLsb'_append_eq_ite]; simp
theorem cbrType_fields : cbrType (cfunct3 p) (c12_10 p) (c9_7 p) (c6_2 p) (cquadrant p) = p := by
  ext i hi
  simp only [cbrType, cfunct3, c12_10, c9_7, c6_2, cquadrant]
  grind
@[simp] theorem cfunct3_cjType : cfunct3 (cjType c3 b11 q) = c3 := by
  simp only [cfunct3, cjType, BitVec.extractLsb'_append_eq_ite]; simp
@[simp] theorem c12_2_cjType : c12_2 (cjType c3 b11 q) = b11 := by
  simp only [c12_2, cjType, BitVec.extractLsb'_append_eq_ite]; simp
@[simp] theorem cquadrant_cjType : cquadrant (cjType c3 b11 q) = q := by
  simp only [cquadrant, cjType, BitVec.extractLsb'_append_eq_ite]; simp
theorem cjType_fields : cjType (cfunct3 p) (c12_2 p) (cquadrant p) = p := by
  ext i hi
  simp only [cjType, cfunct3, c12_2, cquadrant]
  grind

end CompressedFields

/-! Immediates -/

theorem lowZero_bits {w n : Nat} {imm : BitVec w} (h : lowZero n imm = true) : ∀ k, k < n → imm.getLsbD k = false := by
  intro k hk
  have h' : imm.extractLsb' 0 n = 0#n := by simpa [lowZero] using h
  have := congrArg (fun v => v.getLsbD k) h'
  simpa [BitVec.getLsbD_extractLsb', hk] using this

theorem lowZero_of_bits {w n : Nat} {imm : BitVec w} (h : ∀ k, k < n → imm.getLsbD k = false) : lowZero n imm = true := by
  have : imm.extractLsb' 0 n = 0#n := by
    ext i hi
    simp [BitVec.getElem_extractLsb', h i hi]
  simp [lowZero, this]

@[simp] theorem immSHi_immS (hi : BitVec 7) (lo : BitVec 5) : immSHi (immS hi lo) = hi := by
  apply BitVec.eq_of_getLsbD_eq
  intro i h
  interval_cases i <;> simp only [immSHi, immS, BitVec.getLsbD_append, BitVec.getLsbD_extractLsb'] <;> simp
@[simp] theorem immSLo_immS (hi : BitVec 7) (lo : BitVec 5) : immSLo (immS hi lo) = lo := by
  apply BitVec.eq_of_getLsbD_eq
  intro i h
  interval_cases i <;> simp only [immSLo, immS, BitVec.getLsbD_append, BitVec.getLsbD_extractLsb'] <;> simp
@[simp] theorem immS_enc (imm : BitVec 12) : immS (immSHi imm) (immSLo imm) = imm := by
  apply BitVec.eq_of_getLsbD_eq
  intro i hi
  interval_cases i <;> simp only [immS, immSHi, immSLo, BitVec.getLsbD_append, BitVec.getLsbD_extractLsb'] <;> simp
@[simp] theorem immBHi_immB (hi : BitVec 7) (lo : BitVec 5) : immBHi (immB hi lo) = hi := by
  apply BitVec.eq_of_getLsbD_eq
  intro i h
  interval_cases i <;> simp only [immBHi, immB, BitVec.getLsbD_append, BitVec.getLsbD_extractLsb'] <;> simp
@[simp] theorem immBLo_immB (hi : BitVec 7) (lo : BitVec 5) : immBLo (immB hi lo) = lo := by
  apply BitVec.eq_of_getLsbD_eq
  intro i h
  interval_cases i <;> simp only [immBLo, immB, BitVec.getLsbD_append, BitVec.getLsbD_extractLsb'] <;> simp
theorem immB_enc (imm : BitVec 13) (h : lowZero 1 imm = true) : immB (immBHi imm) (immBLo imm) = imm := by
  have h0 : imm[0] = false := by simpa using lowZero_bits h 0 (by decide)
  apply BitVec.eq_of_getLsbD_eq
  intro i hi
  interval_cases i <;> simp only [immB, immBHi, immBLo, BitVec.getLsbD_append, BitVec.getLsbD_extractLsb'] <;> simp [h0]
theorem lowZero_immB (hi : BitVec 7) (lo : BitVec 5) : lowZero 1 (immB hi lo) = true := by
  apply lowZero_of_bits
  intro k hk
  interval_cases k <;> simp only [immB, BitVec.getLsbD_append] <;> simp
@[simp] theorem immJEnc_immJ (b : BitVec 20) : immJEnc (immJ b) = b := by
  apply BitVec.eq_of_getLsbD_eq
  intro i h
  interval_cases i <;> simp only [immJEnc, immJ, BitVec.getLsbD_append, BitVec.getLsbD_extractLsb'] <;> simp
theorem immJ_enc (imm : BitVec 21) (h : lowZero 1 imm = true) : immJ (immJEnc imm) = imm := by
  have h0 : imm[0] = false := by simpa using lowZero_bits h 0 (by decide)
  apply BitVec.eq_of_getLsbD_eq
  intro i hi
  interval_cases i <;> simp only [immJ, immJEnc, BitVec.getLsbD_append, BitVec.getLsbD_extractLsb'] <;> simp [h0]
theorem lowZero_immJ (b : BitVec 20) : lowZero 1 (immJ b) = true := by
  apply lowZero_of_bits
  intro k hk
  interval_cases k <;> simp only [immJ, BitVec.getLsbD_append] <;> simp
@[simp] theorem imm6Hi_imm6 (hi : BitVec 1) (lo : BitVec 5) : imm6Hi (imm6 hi lo) = hi := by
  apply BitVec.eq_of_getLsbD_eq
  intro i h
  interval_cases i <;> simp only [imm6Hi, imm6, BitVec.getLsbD_append, BitVec.getLsbD_extractLsb'] <;> simp
@[simp] theorem imm6Lo_imm6 (hi : BitVec 1) (lo : BitVec 5) : imm6Lo (imm6 hi lo) = lo := by
  apply BitVec.eq_of_getLsbD_eq
  intro i h
  interval_cases i <;> simp only [imm6Lo, imm6, BitVec.getLsbD_append, BitVec.getLsbD_extractLsb'] <;> simp
@[simp] theorem imm6_enc (imm : BitVec 6) : imm6 (imm6Hi imm) (imm6Lo imm) = imm := by
  apply BitVec.eq_of_getLsbD_eq
  intro i hi
  interval_cases i <;> simp only [imm6, imm6Hi, imm6Lo, BitVec.getLsbD_append, BitVec.getLsbD_extractLsb'] <;> simp
@[simp] theorem nzuimmEnc_nzuimm4spn (b : BitVec 8) : nzuimmEnc (nzuimm4spn b) = b := by
  apply BitVec.eq_of_getLsbD_eq
  intro i h
  interval_cases i <;> simp only [nzuimmEnc, nzuimm4spn, BitVec.getLsbD_append, BitVec.getLsbD_extractLsb'] <;> simp
theorem nzuimm4spn_enc (imm : BitVec 10) (h : lowZero 2 imm = true) : nzuimm4spn (nzuimmEnc imm) = imm := by
  have h0 : imm[0] = false := by simpa using lowZero_bits h 0 (by decide)
  have h1 : imm[1] = false := by simpa using lowZero_bits h 1 (by decide)
  apply BitVec.eq_of_getLsbD_eq
  intro i hi
  interval_cases i <;> simp only [nzuimm4spn, nzuimmEnc, BitVec.getLsbD_append, BitVec.getLsbD_extractLsb'] <;> simp [h0, h1]
theorem lowZero_nzuimm4spn (b : BitVec 8) : lowZero 2 (nzuimm4spn b) = true := by
  apply lowZero_of_bits
  intro k hk
  interval_cases k <;> simp only [nzuimm4spn, BitVec.getLsbD_append] <;> simp
@[simp] theorem uimmDHi_uimmD (hi : BitVec 3) (lo : BitVec 2) : uimmDHi (uimmD hi lo) = hi := by
  apply BitVec.eq_of_getLsbD_eq
  intro i h
  interval_cases i <;> simp only [uimmDHi, uimmD, BitVec.getLsbD_append, BitVec.getLsbD_extractLsb'] <;> simp
@[simp] theorem uimmDLo_uimmD (hi : BitVec 3) (lo : BitVec 2) : uimmDLo (uimmD hi lo) = lo := by
  apply BitVec.eq_of_getLsbD_eq
  intro i h
  interval_cases i <;> simp only [uimmDLo, uimmD, BitVec.getLsbD_append, BitVec.getLsbD_extractLsb'] <;> simp
theorem uimmD_enc (imm : BitVec 8) (h : lowZero 3 imm = true) : uimmD (uimmDHi imm) (uimmDLo imm) = imm := by
  have h0 : imm[0] = false := by simpa using lowZero_bits h 0 (by decide)
  have h1 : imm[1] = false := by simpa using lowZero_bits h 1 (by decide)
  have h2 : imm[2] = false := by simpa using lowZero_bits h 2 (by decide)
  apply BitVec.eq_of_getLsbD_eq
  intro i hi
  interval_cases i <;> simp only [uimmD, uimmDHi, uimmDLo, BitVec.getLsbD_append, BitVec.getLsbD_extractLsb'] <;> simp [h0, h1, h2]
theorem lowZero_uimmD (hi : BitVec 3) (lo : BitVec 2) : lowZero 3 (uimmD hi lo) = true := by
  apply lowZero_of_bits
  intro k hk
  interval_cases k <;> simp only [uimmD, BitVec.getLsbD_append] <;> simp
@[simp] theorem uimmWHi_uimmW (hi : BitVec 3) (lo : BitVec 2) : uimmWHi (uimmW hi lo) = hi := by
  apply BitVec.eq_of_getLsbD_eq
  intro i h
  interval_cases i <;> simp only [uimmWHi, uimmW, BitVec.getLsbD_append, BitVec.getLsbD_extractLsb'] <;> simp
@[simp] theorem uimmWLo_uimmW (hi : BitVec 3) (lo : BitVec 2) : uimmWLo (uimmW hi lo) = lo := by
  apply BitVec.eq_of_getLsbD_eq
  intro i h
  interval_cases i <;> simp only [uimmWLo, uimmW, BitVec.getLsbD_append, BitVec.getLsbD_extractLsb'] <;> simp
theorem uimmW_enc (imm : BitVec 7) (h : lowZero 2 imm = true) : uimmW (uimmWHi imm) (uimmWLo imm) = imm := by
  have h0 : imm[0] = false := by simpa using lowZero_bits h 0 (by decide)
  have h1 : imm[1] = false := by simpa using lowZero_bits h 1 (by decide)
  apply BitVec.eq_of_getLsbD_eq
  intro i hi
  interval_cases i <;> simp only [uimmW, uimmWHi, uimmWLo, BitVec.getLsbD_append, BitVec.getLsbD_extractLsb'] <;> simp [h0, h1]
theorem lowZero_uimmW (hi : BitVec 3) (lo : BitVec 2) : lowZero 2 (uimmW hi lo) = true := by
  apply lowZero_of_bits
  intro k hk
  interval_cases k <;> simp only [uimmW, BitVec.getLsbD_append] <;> simp
@[simp] theorem nzimm16Hi_nzimm16 (hi : BitVec 1) (lo : BitVec 5) : nzimm16Hi (nzimm16 hi lo) = hi := by
  apply BitVec.eq_of_getLsbD_eq
  intro i h
  interval_cases i <;> simp only [nzimm16Hi, nzimm16, BitVec.getLsbD_append, BitVec.getLsbD_extractLsb'] <;> simp
@[simp] theorem nzimm16Lo_nzimm16 (hi : BitVec 1) (lo : BitVec 5) : nzimm16Lo (nzimm16 hi lo) = lo := by
  apply BitVec.eq_of_getLsbD_eq
  intro i h
  interval_cases i <;> simp only [nzimm16Lo, nzimm16, BitVec.getLsbD_append, BitVec.getLsbD_extractLsb'] <;> simp
theorem nzimm16_enc (imm : BitVec 10) (h : lowZero 4 imm = true) : nzimm16 (nzimm16Hi imm) (nzimm16Lo imm) = imm := by
  have h0 : imm[0] = false := by simpa using lowZero_bits h 0 (by decide)
  have h1 : imm[1] = false := by simpa using lowZero_bits h 1 (by decide)
  have h2 : imm[2] = false := by simpa using lowZero_bits h 2 (by decide)
  have h3 : imm[3] = false := by simpa using lowZero_bits h 3 (by decide)
  apply BitVec.eq_of_getLsbD_eq
  intro i hi
  interval_cases i <;> simp only [nzimm16, nzimm16Hi, nzimm16Lo, BitVec.getLsbD_append, BitVec.getLsbD_extractLsb'] <;> simp [h0, h1, h2, h3]
theorem lowZero_nzimm16 (hi : BitVec 1) (lo : BitVec 5) : lowZero 4 (nzimm16 hi lo) = true := by
  apply lowZero_of_bits
  intro k hk
  interval_cases k <;> simp only [nzimm16, BitVec.getLsbD_append] <;> simp
@[simp] theorem offJEnc_offJ (b : BitVec 11) : offJEnc (offJ b) = b := by
  apply BitVec.eq_of_getLsbD_eq
  intro i h
  interval_cases i <;> simp only [offJEnc, offJ, BitVec.getLsbD_append, BitVec.getLsbD_extractLsb'] <;> simp
theorem offJ_enc (imm : BitVec 12) (h : lowZero 1 imm = true) : offJ (offJEnc imm) = imm := by
  have h0 : imm[0] = false := by simpa using lowZero_bits h 0 (by decide)
  apply BitVec.eq_of_getLsbD_eq
  intro i hi
  interval_cases i <;> simp only [offJ, offJEnc, BitVec.getLsbD_append, BitVec.getLsbD_extractLsb'] <;> simp [h0]
theorem lowZero_offJ (b : BitVec 11) : lowZero 1 (offJ b) = true := by
  apply lowZero_of_bits
  intro k hk
  interval_cases k <;> simp only [offJ, BitVec.getLsbD_append] <;> simp
@[simp] theorem offBHi_offB (hi : BitVec 3) (lo : BitVec 5) : offBHi (offB hi lo) = hi := by
  apply BitVec.eq_of_getLsbD_eq
  intro i h
  interval_cases i <;> simp only [offBHi, offB, BitVec.getLsbD_append, BitVec.getLsbD_extractLsb'] <;> simp
@[simp] theorem offBLo_offB (hi : BitVec 3) (lo : BitVec 5) : offBLo (offB hi lo) = lo := by
  apply BitVec.eq_of_getLsbD_eq
  intro i h
  interval_cases i <;> simp only [offBLo, offB, BitVec.getLsbD_append, BitVec.getLsbD_extractLsb'] <;> simp
theorem offB_enc (imm : BitVec 9) (h : lowZero 1 imm = true) : offB (offBHi imm) (offBLo imm) = imm := by
  have h0 : imm[0] = false := by simpa using lowZero_bits h 0 (by decide)
  apply BitVec.eq_of_getLsbD_eq
  intro i hi
  interval_cases i <;> simp only [offB, offBHi, offBLo, BitVec.getLsbD_append, BitVec.getLsbD_extractLsb'] <;> simp [h0]
theorem lowZero_offB (hi : BitVec 3) (lo : BitVec 5) : lowZero 1 (offB hi lo) = true := by
  apply lowZero_of_bits
  intro k hk
  interval_cases k <;> simp only [offB, BitVec.getLsbD_append] <;> simp
@[simp] theorem uimmWspHi_uimmWsp (hi : BitVec 1) (lo : BitVec 5) : uimmWspHi (uimmWsp hi lo) = hi := by
  apply BitVec.eq_of_getLsbD_eq
  intro i h
  interval_cases i <;> simp only [uimmWspHi, uimmWsp, BitVec.getLsbD_append, BitVec.getLsbD_extractLsb'] <;> simp
@[simp] theorem uimmWspLo_uimmWsp (hi : BitVec 1) (lo : BitVec 5) : uimmWspLo (uimmWsp hi lo) = lo := by
  apply BitVec.eq_of_getLsbD_eq
  intro i h
  interval_cases i <;> simp only [uimmWspLo, uimmWsp, BitVec.getLsbD_append, BitVec.getLsbD_extractLsb'] <;> simp
theorem uimmWsp_enc (imm : BitVec 8) (h : lowZero 2 imm = true) : uimmWsp (uimmWspHi imm) (uimmWspLo imm) = imm := by
  have h0 : imm[0] = false := by simpa using lowZero_bits h 0 (by decide)
  have h1 : imm[1] = false := by simpa using lowZero_bits h 1 (by decide)
  apply BitVec.eq_of_getLsbD_eq
  intro i hi
  interval_cases i <;> simp only [uimmWsp, uimmWspHi, uimmWspLo, BitVec.getLsbD_append, BitVec.getLsbD_extractLsb'] <;> simp [h0, h1]
theorem lowZero_uimmWsp (hi : BitVec 1) (lo : BitVec 5) : lowZero 2 (uimmWsp hi lo) = true := by
  apply lowZero_of_bits
  intro k hk
  interval_cases k <;> simp only [uimmWsp, BitVec.getLsbD_append] <;> simp
@[simp] theorem uimmDspHi_uimmDsp (hi : BitVec 1) (lo : BitVec 5) : uimmDspHi (uimmDsp hi lo) = hi := by
  apply BitVec.eq_of_getLsbD_eq
  intro i h
  interval_cases i <;> simp only [uimmDspHi, uimmDsp, BitVec.getLsbD_append, BitVec.getLsbD_extractLsb'] <;> simp
@[simp] theorem uimmDspLo_uimmDsp (hi : BitVec 1) (lo : BitVec 5) : uimmDspLo (uimmDsp hi lo) = lo := by
  apply BitVec.eq_of_getLsbD_eq
  intro i h
  interval_cases i <;> simp only [uimmDspLo, uimmDsp, BitVec.getLsbD_append, BitVec.getLsbD_extractLsb'] <;> simp
theorem uimmDsp_enc (imm : BitVec 9) (h : lowZero 3 imm = true) : uimmDsp (uimmDspHi imm) (uimmDspLo imm) = imm := by
  have h0 : imm[0] = false := by simpa using lowZero_bits h 0 (by decide)
  have h1 : imm[1] = false := by simpa using lowZero_bits h 1 (by decide)
  have h2 : imm[2] = false := by simpa using lowZero_bits h 2 (by decide)
  apply BitVec.eq_of_getLsbD_eq
  intro i hi
  interval_cases i <;> simp only [uimmDsp, uimmDspHi, uimmDspLo, BitVec.getLsbD_append, BitVec.getLsbD_extractLsb'] <;> simp [h0, h1, h2]
theorem lowZero_uimmDsp (hi : BitVec 1) (lo : BitVec 5) : lowZero 3 (uimmDsp hi lo) = true := by
  apply lowZero_of_bits
  intro k hk
  interval_cases k <;> simp only [uimmDsp, BitVec.getLsbD_append] <;> simp
@[simp] theorem uimmWssEnc_uimmWss (b : BitVec 6) : uimmWssEnc (uimmWss b) = b := by
  apply BitVec.eq_of_getLsbD_eq
  intro i h
  interval_cases i <;> simp only [uimmWssEnc, uimmWss, BitVec.getLsbD_append, BitVec.getLsbD_extractLsb'] <;> simp
theorem uimmWss_enc (imm : BitVec 8) (h : lowZero 2 imm = true) : uimmWss (uimmWssEnc imm) = imm := by
  have h0 : imm[0] = false := by simpa using lowZero_bits h 0 (by decide)
  have h1 : imm[1] = false := by simpa using lowZero_bits h 1 (by decide)
  apply BitVec.eq_of_getLsbD_eq
  intro i hi
  interval_cases i <;> simp only [uimmWss, uimmWssEnc, BitVec.getLsbD_append, BitVec.getLsbD_extractLsb'] <;> simp [h0, h1]
theorem lowZero_uimmWss (b : BitVec 6) : lowZero 2 (uimmWss b) = true := by
  apply lowZero_of_bits
  intro k hk
  interval_cases k <;> simp only [uimmWss, BitVec.getLsbD_append] <;> simp
@[simp] theorem uimmDssEnc_uimmDss (b : BitVec 6) : uimmDssEnc (uimmDss b) = b := by
  apply BitVec.eq_of_getLsbD_eq
  intro i h
  interval_cases i <;> simp only [uimmDssEnc, uimmDss, BitVec.getLsbD_append, BitVec.getLsbD_extractLsb'] <;> simp
theorem uimmDss_enc (imm : BitVec 9) (h : lowZero 3 imm = true) : uimmDss (uimmDssEnc imm) = imm := by
  have h0 : imm[0] = false := by simpa using lowZero_bits h 0 (by decide)
  have h1 : imm[1] = false := by simpa using lowZero_bits h 1 (by decide)
  have h2 : imm[2] = false := by simpa using lowZero_bits h 2 (by decide)
  apply BitVec.eq_of_getLsbD_eq
  intro i hi
  interval_cases i <;> simp only [uimmDss, uimmDssEnc, BitVec.getLsbD_append, BitVec.getLsbD_extractLsb'] <;> simp [h0, h1, h2]
theorem lowZero_uimmDss (b : BitVec 6) : lowZero 3 (uimmDss b) = true := by
  apply lowZero_of_bits
  intro k hk
  interval_cases k <;> simp only [uimmDss, BitVec.getLsbD_append] <;> simp

end Sys2Proof
end

