-- ==== Sys2Proof/Laws/Inv.lean ====
section
/-! SUPPORT. What keeps the invariant: one lemma per shared operation and per shape of an instruction. -/
namespace Sys2Proof.Machine

/-! ## Even addresses -/

theorem bit0_add (a b : Word) : (a + b).getLsbD 0 = (a.getLsbD 0 ^^ b.getLsbD 0) := by
  have h := BitVec.getElem_add (x := a) (y := b) (i := 0) (by decide)
  simpa using h

theorem bit0_clear (a : Word) : (a &&& ~~~1#64).getLsbD 0 = false := by simp

theorem bit0_add_even {a b : Word} (ha : a.getLsbD 0 = false) (hb : b.getLsbD 0 = false) :
    (a + b).getLsbD 0 = false := by rw [bit0_add, ha, hb]; rfl

theorem bit0_sext {w : Nat} {imm : BitVec w} (hw : 0 < w) (h : imm.getLsbD 0 = false) : (sext imm).getLsbD 0 = false := by
  unfold sext
  rw [BitVec.getLsbD_signExtend, if_pos hw, h]
  rfl

/-- The handler's address is even (R833). -/
theorem bit0_trapVector (tvec : Word) (c : TrapCause) : (State.trapVector tvec c).getLsbD 0 = false := by
  have hb : (tvec &&& ~~~3#64).getLsbD 0 = false := by simp
  unfold State.trapVector
  cases c with
  | exception e => exact hb
  | interrupt i =>
    dsimp only
    split
    · exact bit0_add_even hb (by cases i <;> rfl)
    · exact hb

namespace State

/-! ## Updates -/

theorem Inv.writeX {s : State} (h : s.Inv) (r : Reg) (v : Word) : (s.writeX r v).Inv := by
  constructor <;> simp only [writeX_mem, writeX_cfg, writeX_pc, writeX_csr, writeX_itlb, writeX_dtlb, writeX_resv, granule]
  exacts [h.memWf, h.memInRam, h.pcEven, h.mepcEven, h.sepcEven, h.mtvecLegal, h.stvecLegal, h.satpLegal, h.medelegMasked,
    h.midelegMasked, h.mieMasked, h.itlbBounded, h.dtlbBounded, h.resvAligned]

theorem Inv.writeF {s : State} (h : s.Inv) (r : Reg) (v : Word) : (s.writeF r v).Inv :=
  ⟨h.memWf, h.memInRam, h.pcEven, h.mepcEven, h.sepcEven, h.mtvecLegal, h.stvecLegal, h.satpLegal, h.medelegMasked,
    h.midelegMasked, h.mieMasked, h.itlbBounded, h.dtlbBounded, h.resvAligned⟩

theorem Inv.accrue {s : State} (h : s.Inv) (fl : FFlags) : (s.accrue fl).Inv := by
  unfold State.accrue
  split
  · exact h
  · exact ⟨h.memWf, h.memInRam, h.pcEven, h.mepcEven, h.sepcEven, h.mtvecLegal, h.stvecLegal, h.satpLegal, h.medelegMasked,
      h.midelegMasked, h.mieMasked, h.itlbBounded, h.dtlbBounded, h.resvAligned⟩

theorem Inv.retireTo {s : State} (h : s.Inv) {t : Word} (ht : t.getLsbD 0 = false) : (s.retireTo t).Inv :=
  ⟨h.memWf, h.memInRam, ht, h.mepcEven, h.sepcEven, h.mtvecLegal, h.stvecLegal, h.satpLegal, h.medelegMasked,
    h.midelegMasked, h.mieMasked, h.itlbBounded, h.dtlbBounded, h.resvAligned⟩

/-- Fields the invariant does not speak of may take any value. -/
theorem Inv.setResv {s : State} (h : s.Inv) {r : Option Word} (hr : ∀ g, r = some g → s.granule g = g) :
    State.Inv { s with resv := r } :=
  ⟨h.memWf, h.memInRam, h.pcEven, h.mepcEven, h.sepcEven, h.mtvecLegal, h.stvecLegal, h.satpLegal, h.medelegMasked,
    h.midelegMasked, h.mieMasked, h.itlbBounded, h.dtlbBounded, hr⟩

theorem Inv.setWaiting {s : State} (h : s.Inv) (w : Bool) : State.Inv { s with waiting := w } :=
  ⟨h.memWf, h.memInRam, h.pcEven, h.mepcEven, h.sepcEven, h.mtvecLegal, h.stvecLegal, h.satpLegal, h.medelegMasked,
    h.midelegMasked, h.mieMasked, h.itlbBounded, h.dtlbBounded, h.resvAligned⟩

theorem Inv.setFetchLog {s : State} (h : s.Inv) (l : List Overwrite) : State.Inv { s with fetchLog := l } :=
  ⟨h.memWf, h.memInRam, h.pcEven, h.mepcEven, h.sepcEven, h.mtvecLegal, h.stvecLegal, h.satpLegal, h.medelegMasked,
    h.midelegMasked, h.mieMasked, h.itlbBounded, h.dtlbBounded, h.resvAligned⟩

/-- A granule's address is on a granule. -/
theorem granule_granule (s : State) (pa : Word) : s.granule (s.granule pa) = s.granule pa := by
  unfold granule
  rw [BitVec.and_assoc, BitVec.and_self]

/-! ## Traps -/

theorem Inv.enterM {s : State} (h : s.Inv) (c : TrapCause) (epc tval : Word) : (s.enterM c epc tval).Inv :=
  ⟨h.memWf, h.memInRam, bit0_trapVector _ c, bit0_clear epc, h.sepcEven, h.mtvecLegal, h.stvecLegal, h.satpLegal,
    h.medelegMasked, h.midelegMasked, h.mieMasked, h.itlbBounded, h.dtlbBounded, by simp⟩

theorem Inv.enterS {s : State} (h : s.Inv) (c : TrapCause) (epc tval : Word) : (s.enterS c epc tval).Inv :=
  ⟨h.memWf, h.memInRam, bit0_trapVector _ c, h.mepcEven, bit0_clear epc, h.mtvecLegal, h.stvecLegal, h.satpLegal,
    h.medelegMasked, h.midelegMasked, h.mieMasked, h.itlbBounded, h.dtlbBounded, by simp⟩

theorem Inv.enterTrap {s : State} (h : s.Inv) (c : TrapCause) (epc tval : Word) : (s.enterTrap c epc tval).Inv := by
  unfold State.enterTrap
  split
  · exact h.enterS c epc tval
  · exact h.enterM c epc tval

theorem Inv.returnM {s : State} (h : s.Inv) : s.returnM.Inv :=
  ⟨h.memWf, h.memInRam, h.mepcEven, h.mepcEven, h.sepcEven, h.mtvecLegal, h.stvecLegal, h.satpLegal, h.medelegMasked,
    h.midelegMasked, h.mieMasked, h.itlbBounded, h.dtlbBounded, h.resvAligned⟩

theorem Inv.returnS {s : State} (h : s.Inv) : s.returnS.Inv :=
  ⟨h.memWf, h.memInRam, h.sepcEven, h.mepcEven, h.sepcEven, h.mtvecLegal, h.stvecLegal, h.satpLegal, h.medelegMasked,
    h.midelegMasked, h.mieMasked, h.itlbBounded, h.dtlbBounded, h.resvAligned⟩

/-! ## TLB flushes and CSR writes -/

theorem Inv.flushTlbs {s : State} (h : s.Inv) (va : Option Word) (asid : Option (BitVec 16)) : (s.flushTlbs va asid).Inv :=
  ⟨h.memWf, h.memInRam, h.pcEven, h.mepcEven, h.sepcEven, h.mtvecLegal, h.stvecLegal, h.satpLegal, h.medelegMasked,
    h.midelegMasked, h.mieMasked, (List.length_filter_le ..).trans h.itlbBounded,
    (List.length_filter_le ..).trans h.dtlbBounded, h.resvAligned⟩

theorem Inv.writeSatp {s : State} (h : s.Inv) (v : Word) : (s.writeSatp v).Inv := by
  unfold State.writeSatp
  split
  · rename_i hv
    split
    · exact ⟨h.memWf, h.memInRam, h.pcEven, h.mepcEven, h.sepcEven, h.mtvecLegal, h.stvecLegal, hv, h.medelegMasked,
        h.midelegMasked, h.mieMasked, h.itlbBounded, h.dtlbBounded, h.resvAligned⟩
    · exact ⟨h.memWf, h.memInRam, h.pcEven, h.mepcEven, h.sepcEven, h.mtvecLegal, h.stvecLegal, hv, h.medelegMasked,
        h.midelegMasked, h.mieMasked, by simp, by simp, h.resvAligned⟩
  · exact h

theorem masked (v m : Word) : v &&& m &&& ~~~m = 0#64 := by
  rw [BitVec.and_assoc, BitVec.and_not_self]
  simp

/-- A write to sie keeps the mask of mie (R75). -/
theorem masked_sie (mie mideleg v : Word) (h : mie &&& ~~~mieMask = 0#64) :
    (mie &&& ~~~(mideleg &&& midelegMask) ||| v &&& (mideleg &&& midelegMask)) &&& ~~~mieMask = 0#64 := by
  have hd : midelegMask &&& ~~~mieMask = 0#64 := by decide
  generalize mieMask = m at h hd ⊢
  generalize midelegMask = d at hd ⊢
  apply BitVec.eq_of_getLsbD_eq
  intro i hi
  have hm := congrArg (fun w : Word => w.getLsbD i) h
  have hk := congrArg (fun w : Word => w.getLsbD i) hd
  simp only [BitVec.getLsbD_and, BitVec.getLsbD_or, BitVec.getLsbD_not, hi, BitVec.getLsbD_zero] at hm hk ⊢
  revert hm hk
  cases mie.getLsbD i <;> cases mideleg.getLsbD i <;> cases v.getLsbD i <;> cases m.getLsbD i <;> cases d.getLsbD i <;> simp

theorem Inv.writeCsr {s : State} (h : s.Inv) (c : CsrName) (v : Word) : (s.writeCsr c v).Inv := by
  have same (c' : Csrs) (h1 : c'.mepc.getLsbD 0 = false) (h2 : c'.sepc.getLsbD 0 = false)
      (h3 : legalTvec c'.mtvec = true) (h4 : legalTvec c'.stvec = true) (h5 : legalSatp c'.satp = true)
      (h6 : c'.medeleg &&& ~~~medelegMask = 0#64) (h7 : c'.mideleg &&& ~~~midelegMask = 0#64)
      (h8 : c'.mie &&& ~~~mieMask = 0#64) : State.Inv { s with csr := c' } :=
    ⟨h.memWf, h.memInRam, h.pcEven, h1, h2, h3, h4, h5, h6, h7, h8, h.itlbBounded, h.dtlbBounded, h.resvAligned⟩
  cases c with
  | satp => exact h.writeSatp v
  | stvec =>
    show State.Inv (if _ then _ else _)
    split
    · rename_i hv
      exact same _ h.mepcEven h.sepcEven h.mtvecLegal hv h.satpLegal h.medelegMasked h.midelegMasked h.mieMasked
    · exact h
  | mtvec =>
    show State.Inv (if _ then _ else _)
    split
    · rename_i hv
      exact same _ h.mepcEven h.sepcEven hv h.stvecLegal h.satpLegal h.medelegMasked h.midelegMasked h.mieMasked
    · exact h
  | sip =>
    show State.Inv (if _ then _ else _)
    split
    · exact same _ h.mepcEven h.sepcEven h.mtvecLegal h.stvecLegal h.satpLegal h.medelegMasked h.midelegMasked h.mieMasked
    · exact h
  | sepc =>
    exact same _ h.mepcEven (bit0_clear v) h.mtvecLegal h.stvecLegal h.satpLegal h.medelegMasked h.midelegMasked h.mieMasked
  | mepc =>
    exact same _ (bit0_clear v) h.sepcEven h.mtvecLegal h.stvecLegal h.satpLegal h.medelegMasked h.midelegMasked h.mieMasked
  | medeleg =>
    exact same _ h.mepcEven h.sepcEven h.mtvecLegal h.stvecLegal h.satpLegal (masked ..) h.midelegMasked h.mieMasked
  | mideleg =>
    exact same _ h.mepcEven h.sepcEven h.mtvecLegal h.stvecLegal h.satpLegal h.medelegMasked (masked ..) h.mieMasked
  | mie =>
    exact same _ h.mepcEven h.sepcEven h.mtvecLegal h.stvecLegal h.satpLegal h.medelegMasked h.midelegMasked (masked ..)
  | sie =>
    exact same _ h.mepcEven h.sepcEven h.mtvecLegal h.stvecLegal h.satpLegal h.medelegMasked h.midelegMasked
      (masked_sie _ _ _ h.mieMasked)
  | fflags | frm | fcsr | sstatus | scounteren | sscratch | scause | stval | mstatus | mcounteren | mscratch | mcause | mtval
  | mip | mcycle | minstret =>
    exact same _ h.mepcEven h.sepcEven h.mtvecLegal h.stvecLegal h.satpLegal h.medelegMasked h.midelegMasked h.mieMasked
  | misa | mcountinhibit | mhpmevent | pmpcfg | pmpaddr | mhpmcounter | cycle | time | instret | hpmcounter | mvendorid
  | marchid | mimpid | mhartid | mconfigptr => exact h

/-! ## Shapes of instructions -/

/-- Whatever next state a result has, it meets the invariant. -/
def Keeps (r : Result) : Prop := ∀ t, r = .next t → t.Inv

theorem keeps_next {t : State} (h : t.Inv) : Keeps (.next t) := by
  intro u hu
  cases hu
  exact h

theorem keeps_raiseExc {s : State} (h : s.Inv) (e : Exc) (v : Word) : Keeps (s.raiseExc e v) :=
  keeps_next (h.enterTrap ..)

theorem keeps_deliver {s : State} (h : s.Inv) {r : Res Unit} (k : ∀ t, r = .ok () t → t.Inv) : Keeps (r.deliver s) := by
  cases r with
  | ok a t => exact keeps_next (k t rfl)
  | raise e v => exact keeps_raiseExc h e v

theorem keeps_result {s : State} (h : s.Inv) (rd : Reg) (v : Word) {size : Word} (hs : size.getLsbD 0 = false) :
    Keeps (s.result rd v size) := keeps_next ((h.writeX rd v).retireTo (bit0_add_even h.pcEven hs))

theorem keeps_jumpAndLink {s : State} (h : s.Inv) (rd : Reg) {target : Word} (size : Word)
    (ht : target.getLsbD 0 = false) : Keeps (s.jumpAndLink rd target size) := keeps_next ((h.writeX rd _).retireTo ht)

theorem keeps_branch {s : State} (h : s.Inv) (taken : Bool) {offset size : Word} (ho : offset.getLsbD 0 = false)
    (hs : size.getLsbD 0 = false) : Keeps (s.branch taken offset size) :=
  keeps_next (h.retireTo (bit0_add_even h.pcEven (by cases taken <;> assumption)))

/-- After an access, the rest of the instruction starts from a state that meets the invariant. -/
theorem Kept.inv {s t : State} (k : Kept s t) (h : s.Inv) : t.Inv := h.of_sameCore k.same (k.ok h.memOk)

theorem Kept.pcEven {s t : State} (_k : Kept s t) (h : s.Inv) {size : Word} (hs : size.getLsbD 0 = false) :
    (s.pc + size).getLsbD 0 = false := bit0_add_even h.pcEven hs

theorem keeps_loadX {s : State} (h : s.Inv) (rd : Reg) (ea : Word) (n : Nat) (ext : Word → Word) {size : Word}
    (hs : size.getLsbD 0 = false) : Keeps (s.loadX rd ea n ext size) := by
  refine keeps_deliver h fun t ht => ?_
  obtain ⟨v, u, h1, h2⟩ := Res.bind_ok ht
  cases h2
  exact (((kept_memRead h1).inv h).writeX rd _).retireTo (bit0_add_even h.pcEven hs)

theorem keeps_loadF {s : State} (h : s.Inv) (rd : Reg) (ea : Word) (n : Nat) (mk : Word → Word) {size : Word}
    (hs : size.getLsbD 0 = false) : Keeps (s.loadF rd ea n mk size) := by
  refine keeps_deliver h fun t ht => ?_
  obtain ⟨v, u, h1, h2⟩ := Res.bind_ok ht
  cases h2
  exact (((kept_memRead h1).inv h).writeF rd _).retireTo (bit0_add_even h.pcEven hs)

theorem keeps_store {s : State} (h : s.Inv) (ea : Word) (n : Nat) (v : Word) {size : Word}
    (hs : size.getLsbD 0 = false) : Keeps (s.store ea n v size) := by
  refine keeps_deliver h fun t ht => ?_
  obtain ⟨w, u, h1, h2⟩ := Res.bind_ok ht
  cases h2
  exact ((kept_memWrite h1).inv h).retireTo (bit0_add_even h.pcEven hs)

theorem keeps_loadReserved {s : State} (h : s.Inv) (rd : Reg) (a : Word) (n : Nat) (ext : Word → Word) :
    Keeps (s.loadReserved rd a n ext) := by
  refine keeps_deliver h fun t ht => ?_
  obtain ⟨v, u, h1, h2⟩ := Res.bind_ok ht
  cases h2
  refine Inv.retireTo ((((kept_memRead h1).inv h).writeX rd _).setResv ?_) (bit0_add_even h.pcEven (by decide))
  intro g hg
  cases hg
  simpa [granule] using granule_granule u v.2

theorem keeps_storeConditional {s : State} (h : s.Inv) (rd : Reg) (a : Word) (n : Nat) (v : Word) :
    Keeps (s.storeConditional rd a n v) := by
  refine keeps_deliver h fun t ht => ?_
  obtain ⟨w, u, h1, h2⟩ := Res.bind_ok ht
  cases h2
  exact Inv.retireTo ((((kept_scAccess h1).inv h).writeX rd _).setResv (by simp)) (bit0_add_even h.pcEven (by decide))

theorem keeps_amoW {s : State} (h : s.Inv) (rd : Reg) (a src : Word) (f : BitVec 32 → BitVec 32 → BitVec 32) :
    Keeps (s.amoW rd a src f) := by
  refine keeps_deliver h fun t ht => ?_
  obtain ⟨v, u, h1, h2⟩ := Res.bind_ok ht
  cases h2
  exact (((kept_memAmo h1).inv h).writeX rd _).retireTo (bit0_add_even h.pcEven (by decide))

theorem keeps_amoD {s : State} (h : s.Inv) (rd : Reg) (a src : Word) (f : Word → Word → Word) :
    Keeps (s.amoD rd a src f) := by
  refine keeps_deliver h fun t ht => ?_
  obtain ⟨v, u, h1, h2⟩ := Res.bind_ok ht
  cases h2
  exact (((kept_memAmo h1).inv h).writeX rd _).retireTo (bit0_add_even h.pcEven (by decide))

theorem keeps_fpGuard {s : State} (h : s.Inv) (bits : Word) {k : Result} (hk : Keeps k) : Keeps (s.fpGuard bits k) := by
  unfold fpGuard
  split
  · exact hk
  · exact keeps_raiseExc h _ _

theorem keeps_fpRounded {s : State} (h : s.Inv) (bits : Word) (rm : BitVec 3) {k : RoundingMode → Result}
    (hk : ∀ m, Keeps (k m)) : Keeps (s.fpRounded bits rm k) := by
  refine keeps_fpGuard h bits ?_
  split
  · exact hk _
  · exact keeps_raiseExc h _ _

theorem keeps_resultS {s : State} (h : s.Inv) (rd : Reg) (r : BitVec 32) (fl : FFlags) : Keeps (s.resultS rd r fl) :=
  keeps_next (Inv.retireTo ((h.writeF rd _).accrue fl) (bit0_add_even h.pcEven (by decide)))
theorem keeps_resultD {s : State} (h : s.Inv) (rd : Reg) (r : BitVec 64) (fl : FFlags) : Keeps (s.resultD rd r fl) :=
  keeps_next (Inv.retireTo ((h.writeF rd _).accrue fl) (bit0_add_even h.pcEven (by decide)))
theorem keeps_resultX {s : State} (h : s.Inv) (rd : Reg) (v : Word) (fl : FFlags) : Keeps (s.resultX rd v fl) :=
  keeps_next (Inv.retireTo ((h.writeX rd _).accrue fl) (bit0_add_even h.pcEven (by decide)))

theorem keeps_csrOp {s : State} (h : s.Inv) (bits : Word) (rd : Reg) (csr : BitVec 12) (writes : Bool)
    (new : Word → Word) : Keeps (s.csrOp bits rd csr writes new) := by
  unfold csrOp
  split
  · exact keeps_raiseExc h _ _
  · rename_i c _
    have ht : (State.retireTo (s.writeX rd (s.readCsr c)) (s.pc + 4#64)).Inv :=
      (h.writeX rd _).retireTo (bit0_add_even h.pcEven (by decide))
    dsimp only
    split
    · exact keeps_next (ht.writeCsr ..)
    · exact keeps_next ht

/-! ## Time, environment, fetch -/

theorem Inv.advanceBy {s : State} (h : s.Inv) (n : Word) : (s.advanceBy n).Inv :=
  ⟨h.memWf, h.memInRam, h.pcEven, h.mepcEven, h.sepcEven, h.mtvecLegal, h.stvecLegal, h.satpLegal, h.medelegMasked,
    h.midelegMasked, h.mieMasked, h.itlbBounded, h.dtlbBounded, h.resvAligned⟩

theorem Inv.useDraw {s : State} (h : s.Inv) : s.useDraw.Inv :=
  ⟨h.memWf, h.memInRam, h.pcEven, h.mepcEven, h.sepcEven, h.mtvecLegal, h.stvecLegal, h.satpLegal, h.medelegMasked,
    h.midelegMasked, h.mieMasked, h.itlbBounded, h.dtlbBounded, h.resvAligned⟩

theorem Inv.advance {s : State} (h : s.Inv) : s.advance.Inv :=
  ⟨h.memWf, h.memInRam, h.pcEven, h.mepcEven, h.sepcEven, h.mtvecLegal, h.stvecLegal, h.satpLegal, h.medelegMasked,
    h.midelegMasked, h.mieMasked, h.itlbBounded, h.dtlbBounded, h.resvAligned⟩

theorem Inv.dmaWrite {s : State} (h : s.Inv) (l : List Host.Cell) : (s.dmaWrite l).Inv := by
  induction l generalizing s with
  | nil => exact h
  | cons c l ih =>
    obtain ⟨a, b⟩ := c
    unfold State.dmaWrite
    split
    · rename_i hr
      refine ih ⟨Memory.wf_write h.memWf a b, ?_, h.pcEven, h.mepcEven, h.sepcEven, h.mtvecLegal, h.stvecLegal, h.satpLegal,
        h.medelegMasked, h.midelegMasked, h.mieMasked, h.itlbBounded, h.dtlbBounded, h.resvAligned⟩
      intro c hc
      rcases Memory.mem_write hc with rfl | hc
      · exact hr
      · exact h.memInRam c hc
    · exact ih h

/-- DMA writes RAM and the logs of what was overwritten, and nothing else. -/
theorem dmaWrite_frame (s : State) (l : List Host.Cell) :
    { s.dmaWrite l with mem := s.mem, fetchLog := s.fetchLog, walkLog := s.walkLog } = s := by
  induction l generalizing s with
  | nil => rfl
  | cons c l ih =>
    have h := ih (s.writeByte c.1 c.2)
    unfold State.dmaWrite
    split
    · exact (congrArg (fun t : State => { t with mem := s.mem, fetchLog := s.fetchLog, walkLog := s.walkLog }) h)
    · exact ih s

/-- The environment reaches RAM, the logs and the PLIC, and uses up its input, and does nothing else. -/
theorem environment_frame (s : State) :
    { s.environment with
      mem := s.mem, fetchLog := s.fetchLog, walkLog := s.walkLog, plic := s.plic, inputs := s.inputs } = s := by
  unfold State.environment
  split
  · rfl
  · rename_i i rest _
    exact congrArg (fun t : State => { t with plic := s.plic, inputs := s.inputs }) (dmaWrite_frame _ i.dma)

theorem Inv.environment {s : State} (h : s.Inv) : s.environment.Inv := by
  unfold State.environment
  split
  · exact h
  · refine Inv.dmaWrite ?_ _
    exact ⟨h.memWf, h.memInRam, h.pcEven, h.mepcEven, h.sepcEven, h.mtvecLegal, h.stvecLegal, h.satpLegal, h.medelegMasked,
      h.midelegMasked, h.mieMasked, h.itlbBounded, h.dtlbBounded, h.resvAligned⟩

/-- Latching shows the lines as driven or as they were latched. -/
theorem latchLines_lines (s : State) : s.latchLines.lines = s.lines ∨ s.latchLines.lines = s.drivenLines := by
  unfold State.latchLines
  (repeat' split) <;> first | exact .inl rfl | exact .inr rfl

theorem latchLines_driven (s : State) : s.latchLines.drivenLines = s.drivenLines := by simp [State.drivenLines]

theorem Inv.latchLines {s : State} (h : s.Inv) : s.latchLines.Inv := by
  unfold State.latchLines
  split
  · exact ⟨h.memWf, h.memInRam, h.pcEven, h.mepcEven, h.sepcEven, h.mtvecLegal, h.stvecLegal, h.satpLegal, h.medelegMasked,
      h.midelegMasked, h.mieMasked, h.itlbBounded, h.dtlbBounded, h.resvAligned⟩
  · split
    · exact ⟨h.memWf, h.memInRam, h.pcEven, h.mepcEven, h.sepcEven, h.mtvecLegal, h.stvecLegal, h.satpLegal,
        h.medelegMasked, h.midelegMasked, h.mieMasked, h.itlbBounded, h.dtlbBounded, h.resvAligned⟩
    · exact ⟨h.memWf, h.memInRam, h.pcEven, h.mepcEven, h.sepcEven, h.mtvecLegal, h.stvecLegal, h.satpLegal,
        h.medelegMasked, h.midelegMasked, h.mieMasked, h.itlbBounded, h.dtlbBounded, h.resvAligned⟩

theorem Inv.noteLines {s : State} (h : s.Inv) (before : Lines) : (s.noteLines before).Inv :=
  ⟨h.memWf, h.memInRam, h.pcEven, h.mepcEven, h.sepcEven, h.mtvecLegal, h.stvecLegal, h.satpLegal, h.medelegMasked,
    h.midelegMasked, h.mieMasked, h.itlbBounded, h.dtlbBounded, h.resvAligned⟩

theorem Inv.ageLines {s : State} (h : s.Inv) (before : Lines) : (s.ageLines before).Inv :=
  ⟨h.memWf, h.memInRam, h.pcEven, h.mepcEven, h.sepcEven, h.mtvecLegal, h.stvecLegal, h.satpLegal, h.medelegMasked,
    h.midelegMasked, h.mieMasked, h.itlbBounded, h.dtlbBounded, h.resvAligned⟩

theorem Inv.tick {s : State} (h : s.Inv) : s.tick.Inv := (h.advance.environment.ageLines s.drivenLines).latchLines

theorem Inv.endStep {s : State} (h : s.Inv) : s.endStep.Inv :=
  ((h.advanceBy s.lateCycles).useDraw.environment.noteLines s.drivenLines).latchLines

theorem Inv.takeInterrupt {s : State} (h : s.Inv) (i : Irq) : (s.takeInterrupt i).Inv := (h.setWaiting false).enterTrap ..

theorem kept_fetchBus {s : State} {pa : Word} {p : BitVec 16} {t : State} (h : s.fetchBus pa = some (p, t)) : Kept s t := by
  unfold fetchBus at h
  split at h
  · split at h
    · simp only [Option.some.injEq, Prod.mk.injEq] at h
      obtain ⟨-, rfl⟩ := h
      exact kept_useDraw s
    · cases h
  · split at h
    · cases h
    · rename_i hb
      simp only [Option.some.injEq, Prod.mk.injEq] at h
      obtain ⟨-, rfl⟩ := h
      exact kept_busRead hb

theorem kept_fetch16 (s : State) (va : Word) : Kept s (s.fetch16 va).2 := by
  unfold fetch16
  split
  · exact .refl s
  · rename_i ht
    split
    · exact .refl s
    · rename_i hb
      exact (kept_translate ht).trans (kept_fetchBus hb)

theorem kept_fetchInstr (s : State) : Kept s s.fetchInstr.2 := by
  have k := kept_fetch16 s s.pc
  unfold fetchInstr
  split
  · rename_i h
    rwa [h] at k
  · rename_i lo t h
    rw [h] at k
    have k2 := kept_fetch16 t (s.pc + 2#64)
    split
    · split
      · rename_i h2
        rw [h2] at k2
        exact k.trans k2
      · rename_i h2
        rw [h2] at k2
        exact k.trans k2
    · exact k

theorem keeps_settle {r : Result} (h : Keeps r) : Keeps (settle r) := by
  cases r with
  | next t => exact keeps_next (h t rfl).endStep
  | fault f => intro t ht; cases ht
  | refused f => intro t ht; cases ht

end State
end Sys2Proof.Machine
end

