-- ==== Sys2Proof/Laws/PerInstr.lean ====
section
/-! SUPPORT. One lemma for each instruction: the decoder reads back the bits the encoder writes. -/
namespace Sys2Proof.Laws.Encoding
open Sys2Proof Sys2Proof.InstrField

-- One lemma at a time: in parallel, lemmas that wait for one another each hold a thread with its stack.
set_option Elab.async false

/-- The decoder gives a well-formed instruction back from its own bits. -/
def Statement (i : Instr) : Prop := i.wellFormed = true → decodeCode (encode i) = .ok i

theorem of_word {i : Instr} {w : BitVec 32} (he : encode i = .word w) (hd : decode32 w = some i) : Statement i := by
  intro _
  simp only [he, decodeCode, hd]

theorem of_half {i : Instr} {p : BitVec 16} (he : encode i = .half p) (hd : i.wellFormed = true → decode16 p = some i) :
    Statement i := by
  intro h
  simp only [he, decodeCode, hd h]

theorem lui (rd : Reg) (imm : BitVec 20) : Statement (.lui rd imm) :=
  of_word rfl (by simp [decode32])
theorem auipc (rd : Reg) (imm : BitVec 20) : Statement (.auipc rd imm) :=
  of_word rfl (by simp [decode32])
theorem addi (rd rs1 : Reg) (imm : BitVec 12) : Statement (.addi rd rs1 imm) :=
  of_word rfl (by simp [decode32, decodeOpImm])
theorem slti (rd rs1 : Reg) (imm : BitVec 12) : Statement (.slti rd rs1 imm) :=
  of_word rfl (by simp [decode32, decodeOpImm])
theorem sltiu (rd rs1 : Reg) (imm : BitVec 12) : Statement (.sltiu rd rs1 imm) :=
  of_word rfl (by simp [decode32, decodeOpImm])
theorem xori (rd rs1 : Reg) (imm : BitVec 12) : Statement (.xori rd rs1 imm) :=
  of_word rfl (by simp [decode32, decodeOpImm])
theorem ori (rd rs1 : Reg) (imm : BitVec 12) : Statement (.ori rd rs1 imm) :=
  of_word rfl (by simp [decode32, decodeOpImm])
theorem andi (rd rs1 : Reg) (imm : BitVec 12) : Statement (.andi rd rs1 imm) :=
  of_word rfl (by simp [decode32, decodeOpImm])
theorem slli (rd rs1 : Reg) (shamt : BitVec 6) : Statement (.slli rd rs1 shamt) :=
  of_word rfl (by simp [decode32, decodeOpImm])
theorem srli (rd rs1 : Reg) (shamt : BitVec 6) : Statement (.srli rd rs1 shamt) :=
  of_word rfl (by simp [decode32, decodeOpImm])
theorem srai (rd rs1 : Reg) (shamt : BitVec 6) : Statement (.srai rd rs1 shamt) :=
  of_word rfl (by simp [decode32, decodeOpImm])
theorem add (rd rs1 rs2 : Reg) : Statement (.add rd rs1 rs2) :=
  of_word rfl (by simp [decode32, decodeOp])
theorem sub (rd rs1 rs2 : Reg) : Statement (.sub rd rs1 rs2) :=
  of_word rfl (by simp [decode32, decodeOp])
theorem sll (rd rs1 rs2 : Reg) : Statement (.sll rd rs1 rs2) :=
  of_word rfl (by simp [decode32, decodeOp])
theorem slt (rd rs1 rs2 : Reg) : Statement (.slt rd rs1 rs2) :=
  of_word rfl (by simp [decode32, decodeOp])
theorem sltu (rd rs1 rs2 : Reg) : Statement (.sltu rd rs1 rs2) :=
  of_word rfl (by simp [decode32, decodeOp])
theorem xor (rd rs1 rs2 : Reg) : Statement (.xor rd rs1 rs2) :=
  of_word rfl (by simp [decode32, decodeOp])
theorem srl (rd rs1 rs2 : Reg) : Statement (.srl rd rs1 rs2) :=
  of_word rfl (by simp [decode32, decodeOp])
theorem sra (rd rs1 rs2 : Reg) : Statement (.sra rd rs1 rs2) :=
  of_word rfl (by simp [decode32, decodeOp])
theorem or (rd rs1 rs2 : Reg) : Statement (.or rd rs1 rs2) :=
  of_word rfl (by simp [decode32, decodeOp])
theorem and (rd rs1 rs2 : Reg) : Statement (.and rd rs1 rs2) :=
  of_word rfl (by simp [decode32, decodeOp])
theorem addiw (rd rs1 : Reg) (imm : BitVec 12) : Statement (.addiw rd rs1 imm) :=
  of_word rfl (by simp [decode32, decodeOpImm32])
theorem slliw (rd rs1 : Reg) (shamt : BitVec 5) : Statement (.slliw rd rs1 shamt) :=
  of_word rfl (by simp [decode32, decodeOpImm32])
theorem srliw (rd rs1 : Reg) (shamt : BitVec 5) : Statement (.srliw rd rs1 shamt) :=
  of_word rfl (by simp [decode32, decodeOpImm32])
theorem sraiw (rd rs1 : Reg) (shamt : BitVec 5) : Statement (.sraiw rd rs1 shamt) :=
  of_word rfl (by simp [decode32, decodeOpImm32])
theorem addw (rd rs1 rs2 : Reg) : Statement (.addw rd rs1 rs2) :=
  of_word rfl (by simp [decode32, decodeOp32])
theorem subw (rd rs1 rs2 : Reg) : Statement (.subw rd rs1 rs2) :=
  of_word rfl (by simp [decode32, decodeOp32])
theorem sllw (rd rs1 rs2 : Reg) : Statement (.sllw rd rs1 rs2) :=
  of_word rfl (by simp [decode32, decodeOp32])
theorem srlw (rd rs1 rs2 : Reg) : Statement (.srlw rd rs1 rs2) :=
  of_word rfl (by simp [decode32, decodeOp32])
theorem sraw (rd rs1 rs2 : Reg) : Statement (.sraw rd rs1 rs2) :=
  of_word rfl (by simp [decode32, decodeOp32])
theorem jal (rd : Reg) (imm : BitVec 21) : Statement (.jal rd imm) := by
  intro h
  have h' : lowZero 1 imm = true := h
  simp [encode, decodeCode, decode32, immJ_enc, h']
theorem jalr (rd rs1 : Reg) (imm : BitVec 12) : Statement (.jalr rd rs1 imm) :=
  of_word rfl (by simp [decode32])
theorem beq (rs1 rs2 : Reg) (imm : BitVec 13) : Statement (.beq rs1 rs2 imm) := by
  intro h
  have h' : lowZero 1 imm = true := h
  simp [encode, decodeCode, decode32, decodeBranch, immB_enc, h']
theorem bne (rs1 rs2 : Reg) (imm : BitVec 13) : Statement (.bne rs1 rs2 imm) := by
  intro h
  have h' : lowZero 1 imm = true := h
  simp [encode, decodeCode, decode32, decodeBranch, immB_enc, h']
theorem blt (rs1 rs2 : Reg) (imm : BitVec 13) : Statement (.blt rs1 rs2 imm) := by
  intro h
  have h' : lowZero 1 imm = true := h
  simp [encode, decodeCode, decode32, decodeBranch, immB_enc, h']
theorem bge (rs1 rs2 : Reg) (imm : BitVec 13) : Statement (.bge rs1 rs2 imm) := by
  intro h
  have h' : lowZero 1 imm = true := h
  simp [encode, decodeCode, decode32, decodeBranch, immB_enc, h']
theorem bltu (rs1 rs2 : Reg) (imm : BitVec 13) : Statement (.bltu rs1 rs2 imm) := by
  intro h
  have h' : lowZero 1 imm = true := h
  simp [encode, decodeCode, decode32, decodeBranch, immB_enc, h']
theorem bgeu (rs1 rs2 : Reg) (imm : BitVec 13) : Statement (.bgeu rs1 rs2 imm) := by
  intro h
  have h' : lowZero 1 imm = true := h
  simp [encode, decodeCode, decode32, decodeBranch, immB_enc, h']
theorem lb (rd rs1 : Reg) (imm : BitVec 12) : Statement (.lb rd rs1 imm) :=
  of_word rfl (by simp [decode32, decodeLoad])
theorem lh (rd rs1 : Reg) (imm : BitVec 12) : Statement (.lh rd rs1 imm) :=
  of_word rfl (by simp [decode32, decodeLoad])
theorem lw (rd rs1 : Reg) (imm : BitVec 12) : Statement (.lw rd rs1 imm) :=
  of_word rfl (by simp [decode32, decodeLoad])
theorem ld (rd rs1 : Reg) (imm : BitVec 12) : Statement (.ld rd rs1 imm) :=
  of_word rfl (by simp [decode32, decodeLoad])
theorem lbu (rd rs1 : Reg) (imm : BitVec 12) : Statement (.lbu rd rs1 imm) :=
  of_word rfl (by simp [decode32, decodeLoad])
theorem lhu (rd rs1 : Reg) (imm : BitVec 12) : Statement (.lhu rd rs1 imm) :=
  of_word rfl (by simp [decode32, decodeLoad])
theorem lwu (rd rs1 : Reg) (imm : BitVec 12) : Statement (.lwu rd rs1 imm) :=
  of_word rfl (by simp [decode32, decodeLoad])
theorem sb (rs1 rs2 : Reg) (imm : BitVec 12) : Statement (.sb rs1 rs2 imm) :=
  of_word rfl (by simp [decode32, decodeStore])
theorem sh (rs1 rs2 : Reg) (imm : BitVec 12) : Statement (.sh rs1 rs2 imm) :=
  of_word rfl (by simp [decode32, decodeStore])
theorem sw (rs1 rs2 : Reg) (imm : BitVec 12) : Statement (.sw rs1 rs2 imm) :=
  of_word rfl (by simp [decode32, decodeStore])
theorem sd (rs1 rs2 : Reg) (imm : BitVec 12) : Statement (.sd rs1 rs2 imm) :=
  of_word rfl (by simp [decode32, decodeStore])
theorem mul (rd rs1 rs2 : Reg) : Statement (.mul rd rs1 rs2) :=
  of_word rfl (by simp [decode32, decodeOp])
theorem mulh (rd rs1 rs2 : Reg) : Statement (.mulh rd rs1 rs2) :=
  of_word rfl (by simp [decode32, decodeOp])
theorem mulhsu (rd rs1 rs2 : Reg) : Statement (.mulhsu rd rs1 rs2) :=
  of_word rfl (by simp [decode32, decodeOp])
theorem mulhu (rd rs1 rs2 : Reg) : Statement (.mulhu rd rs1 rs2) :=
  of_word rfl (by simp [decode32, decodeOp])
theorem div (rd rs1 rs2 : Reg) : Statement (.div rd rs1 rs2) :=
  of_word rfl (by simp [decode32, decodeOp])
theorem divu (rd rs1 rs2 : Reg) : Statement (.divu rd rs1 rs2) :=
  of_word rfl (by simp [decode32, decodeOp])
theorem rem (rd rs1 rs2 : Reg) : Statement (.rem rd rs1 rs2) :=
  of_word rfl (by simp [decode32, decodeOp])
theorem remu (rd rs1 rs2 : Reg) : Statement (.remu rd rs1 rs2) :=
  of_word rfl (by simp [decode32, decodeOp])
theorem mulw (rd rs1 rs2 : Reg) : Statement (.mulw rd rs1 rs2) :=
  of_word rfl (by simp [decode32, decodeOp32])
theorem divw (rd rs1 rs2 : Reg) : Statement (.divw rd rs1 rs2) :=
  of_word rfl (by simp [decode32, decodeOp32])
theorem divuw (rd rs1 rs2 : Reg) : Statement (.divuw rd rs1 rs2) :=
  of_word rfl (by simp [decode32, decodeOp32])
theorem remw (rd rs1 rs2 : Reg) : Statement (.remw rd rs1 rs2) :=
  of_word rfl (by simp [decode32, decodeOp32])
theorem remuw (rd rs1 rs2 : Reg) : Statement (.remuw rd rs1 rs2) :=
  of_word rfl (by simp [decode32, decodeOp32])
theorem lrW (aq rl : BitVec 1) (rd rs1 : Reg) : Statement (.lrW aq rl rd rs1) :=
  of_word rfl (by simp [decode32, decodeAmo])
theorem scW (aq rl : BitVec 1) (rd rs1 rs2 : Reg) : Statement (.scW aq rl rd rs1 rs2) :=
  of_word rfl (by simp [decode32, decodeAmo])
theorem lrD (aq rl : BitVec 1) (rd rs1 : Reg) : Statement (.lrD aq rl rd rs1) :=
  of_word rfl (by simp [decode32, decodeAmo])
theorem scD (aq rl : BitVec 1) (rd rs1 rs2 : Reg) : Statement (.scD aq rl rd rs1 rs2) :=
  of_word rfl (by simp [decode32, decodeAmo])
theorem amoswapW (aq rl : BitVec 1) (rd rs1 rs2 : Reg) : Statement (.amoswapW aq rl rd rs1 rs2) :=
  of_word rfl (by simp [decode32, decodeAmo])
theorem amoaddW (aq rl : BitVec 1) (rd rs1 rs2 : Reg) : Statement (.amoaddW aq rl rd rs1 rs2) :=
  of_word rfl (by simp [decode32, decodeAmo])
theorem amoxorW (aq rl : BitVec 1) (rd rs1 rs2 : Reg) : Statement (.amoxorW aq rl rd rs1 rs2) :=
  of_word rfl (by simp [decode32, decodeAmo])
theorem amoandW (aq rl : BitVec 1) (rd rs1 rs2 : Reg) : Statement (.amoandW aq rl rd rs1 rs2) :=
  of_word rfl (by simp [decode32, decodeAmo])
theorem amoorW (aq rl : BitVec 1) (rd rs1 rs2 : Reg) : Statement (.amoorW aq rl rd rs1 rs2) :=
  of_word rfl (by simp [decode32, decodeAmo])
theorem amominW (aq rl : BitVec 1) (rd rs1 rs2 : Reg) : Statement (.amominW aq rl rd rs1 rs2) :=
  of_word rfl (by simp [decode32, decodeAmo])
theorem amomaxW (aq rl : BitVec 1) (rd rs1 rs2 : Reg) : Statement (.amomaxW aq rl rd rs1 rs2) :=
  of_word rfl (by simp [decode32, decodeAmo])
theorem amominuW (aq rl : BitVec 1) (rd rs1 rs2 : Reg) : Statement (.amominuW aq rl rd rs1 rs2) :=
  of_word rfl (by simp [decode32, decodeAmo])
theorem amomaxuW (aq rl : BitVec 1) (rd rs1 rs2 : Reg) : Statement (.amomaxuW aq rl rd rs1 rs2) :=
  of_word rfl (by simp [decode32, decodeAmo])
theorem amoswapD (aq rl : BitVec 1) (rd rs1 rs2 : Reg) : Statement (.amoswapD aq rl rd rs1 rs2) :=
  of_word rfl (by simp [decode32, decodeAmo])
theorem amoaddD (aq rl : BitVec 1) (rd rs1 rs2 : Reg) : Statement (.amoaddD aq rl rd rs1 rs2) :=
  of_word rfl (by simp [decode32, decodeAmo])
theorem amoxorD (aq rl : BitVec 1) (rd rs1 rs2 : Reg) : Statement (.amoxorD aq rl rd rs1 rs2) :=
  of_word rfl (by simp [decode32, decodeAmo])
theorem amoandD (aq rl : BitVec 1) (rd rs1 rs2 : Reg) : Statement (.amoandD aq rl rd rs1 rs2) :=
  of_word rfl (by simp [decode32, decodeAmo])
theorem amoorD (aq rl : BitVec 1) (rd rs1 rs2 : Reg) : Statement (.amoorD aq rl rd rs1 rs2) :=
  of_word rfl (by simp [decode32, decodeAmo])
theorem amominD (aq rl : BitVec 1) (rd rs1 rs2 : Reg) : Statement (.amominD aq rl rd rs1 rs2) :=
  of_word rfl (by simp [decode32, decodeAmo])
theorem amomaxD (aq rl : BitVec 1) (rd rs1 rs2 : Reg) : Statement (.amomaxD aq rl rd rs1 rs2) :=
  of_word rfl (by simp [decode32, decodeAmo])
theorem amominuD (aq rl : BitVec 1) (rd rs1 rs2 : Reg) : Statement (.amominuD aq rl rd rs1 rs2) :=
  of_word rfl (by simp [decode32, decodeAmo])
theorem amomaxuD (aq rl : BitVec 1) (rd rs1 rs2 : Reg) : Statement (.amomaxuD aq rl rd rs1 rs2) :=
  of_word rfl (by simp [decode32, decodeAmo])
theorem flw (rd rs1 : Reg) (imm : BitVec 12) : Statement (.flw rd rs1 imm) :=
  of_word rfl (by simp [decode32, decodeLoadFp])
theorem fsw (rs1 rs2 : Reg) (imm : BitVec 12) : Statement (.fsw rs1 rs2 imm) :=
  of_word rfl (by simp [decode32, decodeStoreFp])
theorem fmaddS (rm : BitVec 3) (rd rs1 rs2 rs3 : Reg) : Statement (.fmaddS rm rd rs1 rs2 rs3) :=
  of_word rfl (by simp [decode32, decodeFma])
theorem fmsubS (rm : BitVec 3) (rd rs1 rs2 rs3 : Reg) : Statement (.fmsubS rm rd rs1 rs2 rs3) :=
  of_word rfl (by simp [decode32, decodeFma])
theorem fnmsubS (rm : BitVec 3) (rd rs1 rs2 rs3 : Reg) : Statement (.fnmsubS rm rd rs1 rs2 rs3) :=
  of_word rfl (by simp [decode32, decodeFma])
theorem fnmaddS (rm : BitVec 3) (rd rs1 rs2 rs3 : Reg) : Statement (.fnmaddS rm rd rs1 rs2 rs3) :=
  of_word rfl (by simp [decode32, decodeFma])
theorem faddS (rm : BitVec 3) (rd rs1 rs2 : Reg) : Statement (.faddS rm rd rs1 rs2) :=
  of_word rfl (by simp [decode32, decodeOpFp])
theorem fsubS (rm : BitVec 3) (rd rs1 rs2 : Reg) : Statement (.fsubS rm rd rs1 rs2) :=
  of_word rfl (by simp [decode32, decodeOpFp])
theorem fmulS (rm : BitVec 3) (rd rs1 rs2 : Reg) : Statement (.fmulS rm rd rs1 rs2) :=
  of_word rfl (by simp [decode32, decodeOpFp])
theorem fdivS (rm : BitVec 3) (rd rs1 rs2 : Reg) : Statement (.fdivS rm rd rs1 rs2) :=
  of_word rfl (by simp [decode32, decodeOpFp])
theorem fsqrtS (rm : BitVec 3) (rd rs1 : Reg) : Statement (.fsqrtS rm rd rs1) :=
  of_word rfl (by simp [decode32, decodeOpFp])
theorem fsgnjS (rd rs1 rs2 : Reg) : Statement (.fsgnjS rd rs1 rs2) :=
  of_word rfl (by simp [decode32, decodeOpFp])
theorem fsgnjnS (rd rs1 rs2 : Reg) : Statement (.fsgnjnS rd rs1 rs2) :=
  of_word rfl (by simp [decode32, decodeOpFp])
theorem fsgnjxS (rd rs1 rs2 : Reg) : Statement (.fsgnjxS rd rs1 rs2) :=
  of_word rfl (by simp [decode32, decodeOpFp])
theorem fminS (rd rs1 rs2 : Reg) : Statement (.fminS rd rs1 rs2) :=
  of_word rfl (by simp [decode32, decodeOpFp])
theorem fmaxS (rd rs1 rs2 : Reg) : Statement (.fmaxS rd rs1 rs2) :=
  of_word rfl (by simp [decode32, decodeOpFp])
theorem fcvtWS (rm : BitVec 3) (rd rs1 : Reg) : Statement (.fcvtWS rm rd rs1) :=
  of_word rfl (by simp [decode32, decodeOpFp])
theorem fcvtWuS (rm : BitVec 3) (rd rs1 : Reg) : Statement (.fcvtWuS rm rd rs1) :=
  of_word rfl (by simp [decode32, decodeOpFp])
theorem fmvXW (rd rs1 : Reg) : Statement (.fmvXW rd rs1) :=
  of_word rfl (by simp [decode32, decodeOpFp])
theorem feqS (rd rs1 rs2 : Reg) : Statement (.feqS rd rs1 rs2) :=
  of_word rfl (by simp [decode32, decodeOpFp])
theorem fltS (rd rs1 rs2 : Reg) : Statement (.fltS rd rs1 rs2) :=
  of_word rfl (by simp [decode32, decodeOpFp])
theorem fmvWX (rd rs1 : Reg) : Statement (.fmvWX rd rs1) :=
  of_word rfl (by simp [decode32, decodeOpFp])
theorem fleS (rd rs1 rs2 : Reg) : Statement (.fleS rd rs1 rs2) :=
  of_word rfl (by simp [decode32, decodeOpFp])
theorem fclassS (rd rs1 : Reg) : Statement (.fclassS rd rs1) :=
  of_word rfl (by simp [decode32, decodeOpFp])
theorem fcvtSW (rm : BitVec 3) (rd rs1 : Reg) : Statement (.fcvtSW rm rd rs1) :=
  of_word rfl (by simp [decode32, decodeOpFp])
theorem fcvtSWu (rm : BitVec 3) (rd rs1 : Reg) : Statement (.fcvtSWu rm rd rs1) :=
  of_word rfl (by simp [decode32, decodeOpFp])
theorem fcvtLS (rm : BitVec 3) (rd rs1 : Reg) : Statement (.fcvtLS rm rd rs1) :=
  of_word rfl (by simp [decode32, decodeOpFp])
theorem fcvtLuS (rm : BitVec 3) (rd rs1 : Reg) : Statement (.fcvtLuS rm rd rs1) :=
  of_word rfl (by simp [decode32, decodeOpFp])
theorem fcvtSL (rm : BitVec 3) (rd rs1 : Reg) : Statement (.fcvtSL rm rd rs1) :=
  of_word rfl (by simp [decode32, decodeOpFp])
theorem fcvtSLu (rm : BitVec 3) (rd rs1 : Reg) : Statement (.fcvtSLu rm rd rs1) :=
  of_word rfl (by simp [decode32, decodeOpFp])
theorem fld (rd rs1 : Reg) (imm : BitVec 12) : Statement (.fld rd rs1 imm) :=
  of_word rfl (by simp [decode32, decodeLoadFp])
theorem fsd (rs1 rs2 : Reg) (imm : BitVec 12) : Statement (.fsd rs1 rs2 imm) :=
  of_word rfl (by simp [decode32, decodeStoreFp])
theorem fmaddD (rm : BitVec 3) (rd rs1 rs2 rs3 : Reg) : Statement (.fmaddD rm rd rs1 rs2 rs3) :=
  of_word rfl (by simp [decode32, decodeFma])
theorem fmsubD (rm : BitVec 3) (rd rs1 rs2 rs3 : Reg) : Statement (.fmsubD rm rd rs1 rs2 rs3) :=
  of_word rfl (by simp [decode32, decodeFma])
theorem fnmsubD (rm : BitVec 3) (rd rs1 rs2 rs3 : Reg) : Statement (.fnmsubD rm rd rs1 rs2 rs3) :=
  of_word rfl (by simp [decode32, decodeFma])
theorem fnmaddD (rm : BitVec 3) (rd rs1 rs2 rs3 : Reg) : Statement (.fnmaddD rm rd rs1 rs2 rs3) :=
  of_word rfl (by simp [decode32, decodeFma])
theorem faddD (rm : BitVec 3) (rd rs1 rs2 : Reg) : Statement (.faddD rm rd rs1 rs2) :=
  of_word rfl (by simp [decode32, decodeOpFp])
theorem fsubD (rm : BitVec 3) (rd rs1 rs2 : Reg) : Statement (.fsubD rm rd rs1 rs2) :=
  of_word rfl (by simp [decode32, decodeOpFp])
theorem fmulD (rm : BitVec 3) (rd rs1 rs2 : Reg) : Statement (.fmulD rm rd rs1 rs2) :=
  of_word rfl (by simp [decode32, decodeOpFp])
theorem fdivD (rm : BitVec 3) (rd rs1 rs2 : Reg) : Statement (.fdivD rm rd rs1 rs2) :=
  of_word rfl (by simp [decode32, decodeOpFp])
theorem fsqrtD (rm : BitVec 3) (rd rs1 : Reg) : Statement (.fsqrtD rm rd rs1) :=
  of_word rfl (by simp [decode32, decodeOpFp])
theorem fsgnjD (rd rs1 rs2 : Reg) : Statement (.fsgnjD rd rs1 rs2) :=
  of_word rfl (by simp [decode32, decodeOpFp])
theorem fsgnjnD (rd rs1 rs2 : Reg) : Statement (.fsgnjnD rd rs1 rs2) :=
  of_word rfl (by simp [decode32, decodeOpFp])
theorem fsgnjxD (rd rs1 rs2 : Reg) : Statement (.fsgnjxD rd rs1 rs2) :=
  of_word rfl (by simp [decode32, decodeOpFp])
theorem fminD (rd rs1 rs2 : Reg) : Statement (.fminD rd rs1 rs2) :=
  of_word rfl (by simp [decode32, decodeOpFp])
theorem fmaxD (rd rs1 rs2 : Reg) : Statement (.fmaxD rd rs1 rs2) :=
  of_word rfl (by simp [decode32, decodeOpFp])
theorem fcvtSD (rm : BitVec 3) (rd rs1 : Reg) : Statement (.fcvtSD rm rd rs1) :=
  of_word rfl (by simp [decode32, decodeOpFp])
theorem fcvtDS (rm : BitVec 3) (rd rs1 : Reg) : Statement (.fcvtDS rm rd rs1) :=
  of_word rfl (by simp [decode32, decodeOpFp])
theorem feqD (rd rs1 rs2 : Reg) : Statement (.feqD rd rs1 rs2) :=
  of_word rfl (by simp [decode32, decodeOpFp])
theorem fltD (rd rs1 rs2 : Reg) : Statement (.fltD rd rs1 rs2) :=
  of_word rfl (by simp [decode32, decodeOpFp])
theorem fleD (rd rs1 rs2 : Reg) : Statement (.fleD rd rs1 rs2) :=
  of_word rfl (by simp [decode32, decodeOpFp])
theorem fclassD (rd rs1 : Reg) : Statement (.fclassD rd rs1) :=
  of_word rfl (by simp [decode32, decodeOpFp])
theorem fcvtWD (rm : BitVec 3) (rd rs1 : Reg) : Statement (.fcvtWD rm rd rs1) :=
  of_word rfl (by simp [decode32, decodeOpFp])
theorem fcvtWuD (rm : BitVec 3) (rd rs1 : Reg) : Statement (.fcvtWuD rm rd rs1) :=
  of_word rfl (by simp [decode32, decodeOpFp])
theorem fcvtDW (rm : BitVec 3) (rd rs1 : Reg) : Statement (.fcvtDW rm rd rs1) :=
  of_word rfl (by simp [decode32, decodeOpFp])
theorem fcvtDWu (rm : BitVec 3) (rd rs1 : Reg) : Statement (.fcvtDWu rm rd rs1) :=
  of_word rfl (by simp [decode32, decodeOpFp])
theorem fcvtLD (rm : BitVec 3) (rd rs1 : Reg) : Statement (.fcvtLD rm rd rs1) :=
  of_word rfl (by simp [decode32, decodeOpFp])
theorem fcvtLuD (rm : BitVec 3) (rd rs1 : Reg) : Statement (.fcvtLuD rm rd rs1) :=
  of_word rfl (by simp [decode32, decodeOpFp])
theorem fmvXD (rd rs1 : Reg) : Statement (.fmvXD rd rs1) :=
  of_word rfl (by simp [decode32, decodeOpFp])
theorem fcvtDL (rm : BitVec 3) (rd rs1 : Reg) : Statement (.fcvtDL rm rd rs1) :=
  of_word rfl (by simp [decode32, decodeOpFp])
theorem fcvtDLu (rm : BitVec 3) (rd rs1 : Reg) : Statement (.fcvtDLu rm rd rs1) :=
  of_word rfl (by simp [decode32, decodeOpFp])
theorem fmvDX (rd rs1 : Reg) : Statement (.fmvDX rd rs1) :=
  of_word rfl (by simp [decode32, decodeOpFp])
theorem ecall : Statement (.ecall) :=
  of_word rfl (by simp [decode32, decodeSystem])
theorem ebreak : Statement (.ebreak) :=
  of_word rfl (by simp [decode32, decodeSystem])
theorem mret : Statement (.mret) :=
  of_word rfl (by simp [decode32, decodeSystem])
theorem sret : Statement (.sret) :=
  of_word rfl (by simp [decode32, decodeSystem])
theorem wfi : Statement (.wfi) :=
  of_word rfl (by simp [decode32, decodeSystem])
theorem sfenceVma (rs1 rs2 : Reg) : Statement (.sfenceVma rs1 rs2) :=
  of_word rfl (by simp [decode32, decodeSystem])
theorem fence (fm pred succ : BitVec 4) (rs1 rd : Reg) : Statement (.fence fm pred succ rs1 rd) :=
  of_word rfl (by simp [decode32, decodeMiscMem])
theorem fenceI (imm : BitVec 12) (rs1 rd : Reg) : Statement (.fenceI imm rs1 rd) :=
  of_word rfl (by simp [decode32, decodeMiscMem])
theorem csrrw (rd : Reg) (csr : BitVec 12) (rs1 : Reg) : Statement (.csrrw rd csr rs1) :=
  of_word rfl (by simp [decode32, decodeSystem])
theorem csrrs (rd : Reg) (csr : BitVec 12) (rs1 : Reg) : Statement (.csrrs rd csr rs1) :=
  of_word rfl (by simp [decode32, decodeSystem])
theorem csrrc (rd : Reg) (csr : BitVec 12) (rs1 : Reg) : Statement (.csrrc rd csr rs1) :=
  of_word rfl (by simp [decode32, decodeSystem])
theorem csrrwi (rd : Reg) (csr : BitVec 12) (uimm : BitVec 5) : Statement (.csrrwi rd csr uimm) :=
  of_word rfl (by simp [decode32, decodeSystem])
theorem csrrsi (rd : Reg) (csr : BitVec 12) (uimm : BitVec 5) : Statement (.csrrsi rd csr uimm) :=
  of_word rfl (by simp [decode32, decodeSystem])
theorem csrrci (rd : Reg) (csr : BitVec 12) (uimm : BitVec 5) : Statement (.csrrci rd csr uimm) :=
  of_word rfl (by simp [decode32, decodeSystem])
theorem cAddi4spn (rd' : CReg) (nzuimm : BitVec 10) : Statement (.cAddi4spn rd' nzuimm) := by
  refine of_half rfl fun h => ?_
  simp [Instr.wellFormed] at h
  simp [decode16, decodeQ0, nzuimm4spn_enc, h]
theorem cFld (rd' rs1' : CReg) (uimm : BitVec 8) : Statement (.cFld rd' rs1' uimm) := by
  refine of_half rfl fun h => ?_
  simp [Instr.wellFormed] at h
  simp [decode16, decodeQ0, uimmD_enc, h]
theorem cLw (rd' rs1' : CReg) (uimm : BitVec 7) : Statement (.cLw rd' rs1' uimm) := by
  refine of_half rfl fun h => ?_
  simp [Instr.wellFormed] at h
  simp [decode16, decodeQ0, uimmW_enc, h]
theorem cLd (rd' rs1' : CReg) (uimm : BitVec 8) : Statement (.cLd rd' rs1' uimm) := by
  refine of_half rfl fun h => ?_
  simp [Instr.wellFormed] at h
  simp [decode16, decodeQ0, uimmD_enc, h]
theorem cFsd (rs1' rs2' : CReg) (uimm : BitVec 8) : Statement (.cFsd rs1' rs2' uimm) := by
  refine of_half rfl fun h => ?_
  simp [Instr.wellFormed] at h
  simp [decode16, decodeQ0, uimmD_enc, h]
theorem cSw (rs1' rs2' : CReg) (uimm : BitVec 7) : Statement (.cSw rs1' rs2' uimm) := by
  refine of_half rfl fun h => ?_
  simp [Instr.wellFormed] at h
  simp [decode16, decodeQ0, uimmW_enc, h]
theorem cSd (rs1' rs2' : CReg) (uimm : BitVec 8) : Statement (.cSd rs1' rs2' uimm) := by
  refine of_half rfl fun h => ?_
  simp [Instr.wellFormed] at h
  simp [decode16, decodeQ0, uimmD_enc, h]
theorem cNop (nzimm : BitVec 6) : Statement (.cNop nzimm) := by
  refine of_half rfl fun h => ?_
  simp [decode16, decodeQ1]
theorem cAddi (rd : Reg) (nzimm : BitVec 6) : Statement (.cAddi rd nzimm) := by
  refine of_half rfl fun h => ?_
  simp [Instr.wellFormed] at h
  simp [decode16, decodeQ1, h]
theorem cAddiw (rd : Reg) (imm : BitVec 6) : Statement (.cAddiw rd imm) := by
  refine of_half rfl fun h => ?_
  simp [Instr.wellFormed] at h
  simp [decode16, decodeQ1, h]
theorem cLi (rd : Reg) (imm : BitVec 6) : Statement (.cLi rd imm) := by
  refine of_half rfl fun h => ?_
  simp [decode16, decodeQ1]
theorem cAddi16sp (nzimm : BitVec 10) : Statement (.cAddi16sp nzimm) := by
  refine of_half rfl fun h => ?_
  simp [Instr.wellFormed] at h
  simp [decode16, decodeQ1, nzimm16_enc, h]
theorem cLui (rd : Reg) (nzimm : BitVec 6) : Statement (.cLui rd nzimm) := by
  refine of_half rfl fun h => ?_
  simp [Instr.wellFormed] at h
  simp [decode16, decodeQ1, h]
theorem cSrli (rd' : CReg) (shamt : BitVec 6) : Statement (.cSrli rd' shamt) := by
  refine of_half rfl fun h => ?_
  simp [decode16, decodeQ1, decodeQ1Alu]
theorem cSrai (rd' : CReg) (shamt : BitVec 6) : Statement (.cSrai rd' shamt) := by
  refine of_half rfl fun h => ?_
  simp [decode16, decodeQ1, decodeQ1Alu]
theorem cAndi (rd' : CReg) (imm : BitVec 6) : Statement (.cAndi rd' imm) := by
  refine of_half rfl fun h => ?_
  simp [decode16, decodeQ1, decodeQ1Alu]
theorem cSub (rd' rs2' : CReg) : Statement (.cSub rd' rs2') := by
  refine of_half rfl fun h => ?_
  simp [decode16, decodeQ1, decodeQ1Alu]
theorem cXor (rd' rs2' : CReg) : Statement (.cXor rd' rs2') := by
  refine of_half rfl fun h => ?_
  simp [decode16, decodeQ1, decodeQ1Alu]
theorem cOr (rd' rs2' : CReg) : Statement (.cOr rd' rs2') := by
  refine of_half rfl fun h => ?_
  simp [decode16, decodeQ1, decodeQ1Alu]
theorem cAnd (rd' rs2' : CReg) : Statement (.cAnd rd' rs2') := by
  refine of_half rfl fun h => ?_
  simp [decode16, decodeQ1, decodeQ1Alu]
theorem cSubw (rd' rs2' : CReg) : Statement (.cSubw rd' rs2') := by
  refine of_half rfl fun h => ?_
  simp [decode16, decodeQ1, decodeQ1Alu]
theorem cAddw (rd' rs2' : CReg) : Statement (.cAddw rd' rs2') := by
  refine of_half rfl fun h => ?_
  simp [decode16, decodeQ1, decodeQ1Alu]
theorem cJ (offset : BitVec 12) : Statement (.cJ offset) := by
  refine of_half rfl fun h => ?_
  simp [Instr.wellFormed] at h
  simp [decode16, decodeQ1, offJ_enc, h]
theorem cBeqz (rs1' : CReg) (offset : BitVec 9) : Statement (.cBeqz rs1' offset) := by
  refine of_half rfl fun h => ?_
  simp [Instr.wellFormed] at h
  simp [decode16, decodeQ1, offB_enc, h]
theorem cBnez (rs1' : CReg) (offset : BitVec 9) : Statement (.cBnez rs1' offset) := by
  refine of_half rfl fun h => ?_
  simp [Instr.wellFormed] at h
  simp [decode16, decodeQ1, offB_enc, h]
theorem cSlli (rd : Reg) (shamt : BitVec 6) : Statement (.cSlli rd shamt) := by
  refine of_half rfl fun h => ?_
  simp [decode16, decodeQ2]
theorem cFldsp (rd : Reg) (uimm : BitVec 9) : Statement (.cFldsp rd uimm) := by
  refine of_half rfl fun h => ?_
  simp [Instr.wellFormed] at h
  simp [decode16, decodeQ2, uimmDsp_enc, h]
theorem cLwsp (rd : Reg) (uimm : BitVec 8) : Statement (.cLwsp rd uimm) := by
  refine of_half rfl fun h => ?_
  simp [Instr.wellFormed] at h
  simp [decode16, decodeQ2, uimmWsp_enc, h]
theorem cLdsp (rd : Reg) (uimm : BitVec 9) : Statement (.cLdsp rd uimm) := by
  refine of_half rfl fun h => ?_
  simp [Instr.wellFormed] at h
  simp [decode16, decodeQ2, uimmDsp_enc, h]
theorem cJr (rs1 : Reg) : Statement (.cJr rs1) := by
  refine of_half rfl fun h => ?_
  simp [Instr.wellFormed] at h
  simp [decode16, decodeQ2, decodeQ2Jump, h]
theorem cMv (rd rs2 : Reg) : Statement (.cMv rd rs2) := by
  refine of_half rfl fun h => ?_
  simp [Instr.wellFormed] at h
  simp [decode16, decodeQ2, decodeQ2Jump, h]
theorem cEbreak : Statement (.cEbreak) := by
  refine of_half rfl fun h => ?_
  simp [decode16, decodeQ2, decodeQ2Jump]
theorem cJalr (rs1 : Reg) : Statement (.cJalr rs1) := by
  refine of_half rfl fun h => ?_
  simp [Instr.wellFormed] at h
  simp [decode16, decodeQ2, decodeQ2Jump, h]
theorem cAdd (rd rs2 : Reg) : Statement (.cAdd rd rs2) := by
  refine of_half rfl fun h => ?_
  simp [Instr.wellFormed] at h
  simp [decode16, decodeQ2, decodeQ2Jump, h]
theorem cFsdsp (rs2 : Reg) (uimm : BitVec 9) : Statement (.cFsdsp rs2 uimm) := by
  refine of_half rfl fun h => ?_
  simp [Instr.wellFormed] at h
  simp [decode16, decodeQ2, uimmDss_enc, h]
theorem cSwsp (rs2 : Reg) (uimm : BitVec 8) : Statement (.cSwsp rs2 uimm) := by
  refine of_half rfl fun h => ?_
  simp [Instr.wellFormed] at h
  simp [decode16, decodeQ2, uimmWss_enc, h]
theorem cSdsp (rs2 : Reg) (uimm : BitVec 9) : Statement (.cSdsp rs2 uimm) := by
  refine of_half rfl fun h => ?_
  simp [Instr.wellFormed] at h
  simp [decode16, decodeQ2, uimmDss_enc, h]

end Sys2Proof.Laws.Encoding
end

