-- ==== Sys2Proof/Laws/Uarch.lean ====
section
/-! SUPPORT. Small lemmas of the microarchitecture: tables, cache levels and their counts, the registers a unit reads. -/
namespace Sys2Proof.Machine

/-! ## Tables -/

namespace Table

theorem get_set_self {α : Type} (d : α) (t : Table α) (i : Nat) (a : α) : get d (set t i a) i = a := by
  induction t with
  | nil => simp [set, get]
  | cons e t ih =>
    obtain ⟨k, v⟩ := e
    simp only [set]
    split
    · simp [get]
    · split
      · simp [get]
      · rename_i h1 h2
        have : k ≠ i := fun h => h2 h.symm
        simp [get, this, ih]

theorem get_set_other {α : Type} (d : α) (t : Table α) {i j : Nat} (a : α) (h : i ≠ j) :
    get d (set t i a) j = get d t j := by
  induction t with
  | nil => simp [set, get, h]
  | cons e t ih =>
    obtain ⟨k, v⟩ := e
    simp only [set]
    split
    · simp [get, h]
    · split
      · rename_i h2
        subst h2
        simp [get, h]
      · simp only [get]
        split
        · rfl
        · exact ih

end Table

/-! ## Cache levels -/

namespace Uarch

@[simp] theorem cache_setCache (u : Uarch) (l : Level) (k : Cache) : (u.setCache l k).cache l = k := by cases l <;> rfl

theorem cache_setCache_other (u : Uarch) {l m : Level} (k : Cache) (h : m ≠ l) : (u.setCache l k).cache m = u.cache m := by
  cases l <;> cases m <;> first | rfl | exact absurd rfl h

@[simp] theorem cache_dram (u : Uarch) (t : TimingConfig) (pa bytes : Nat) (l : Level) :
    (u.dram t pa bytes).2.cache l = u.cache l := by cases l <;> rfl

@[simp] theorem cache_prng (u : Uarch) (v : Word) (l : Level) : ({ u with prng := v } : Uarch).cache l = u.cache l := by
  cases l <;> rfl

theorem count_cache (u : Uarch) (l : Level) (hit : Bool) :
    (u.count l hit).cache l = if hit then { u.cache l with hits := (u.cache l).hits + 1 }
      else { u.cache l with misses := (u.cache l).misses + 1 } := by
  unfold count
  simp

theorem count_cache_other (u : Uarch) {l m : Level} (hit : Bool) (h : m ≠ l) : (u.count l hit).cache m = u.cache m :=
  cache_setCache_other u _ h

@[simp] theorem putSet_counts (u : Uarch) (c : CacheConfig) (l : Level) (pa : Nat) (s : CacheSet) :
    ((u.putSet c l pa s).cache l).hits = (u.cache l).hits ∧ ((u.putSet c l pa s).cache l).misses = (u.cache l).misses := by
  unfold putSet
  simp

theorem putSet_cache_other (u : Uarch) (c : CacheConfig) {l m : Level} (pa : Nat) (s : CacheSet) (h : m ≠ l) :
    (u.putSet c l pa s).cache m = u.cache m := cache_setCache_other u _ h

/-- Installing a line changes no count of its level. -/
theorem fillLine_counts (u : Uarch) (c : CacheConfig) (l : Level) (pa : Nat) (line : LineState) (p : Bool) :
    ((u.fillLine c l pa line p).1.cache l).hits = (u.cache l).hits ∧
      ((u.fillLine c l pa line p).1.cache l).misses = (u.cache l).misses := by
  unfold fillLine
  simp

/-- Installing a line changes no other level. -/
theorem fillLine_cache_other (u : Uarch) (c : CacheConfig) {l m : Level} (pa : Nat) (line : LineState) (p : Bool)
    (h : m ≠ l) : (u.fillLine c l pa line p).1.cache m = u.cache m := by
  unfold fillLine
  simp [putSet_cache_other _ _ _ _ h]

end Uarch

/-- A prefetcher's tables are no counts. -/
theorem observe_counts (c : CacheConfig) (t : Nat) (k : Cache) (r : Observed) (hit was : Bool) :
    (observe c t k r hit was).1.hits = k.hits ∧ (observe c t k r hit was).1.misses = k.misses := by
  unfold observe
  split
  · exact ⟨rfl, rfl⟩
  · exact ⟨rfl, rfl⟩
  · exact ⟨rfl, rfl⟩
  · split <;> exact ⟨rfl, rfl⟩
  · split
    · exact ⟨rfl, rfl⟩
    · unfold streamStep
      (repeat' split) <;> exact ⟨rfl, rfl⟩

/-! ## Control signals -/

/-- is-compressed is set for the instructions of two bytes, and those have an expansion (R740). -/
theorem ctrl_compressed (i : Instr) : (ctrl i).compressed = decide (instrSize i = 2) := by
  cases i <;> rfl

/-- The width signal is the width of the access the instruction makes (R336). -/
theorem ctrl_mem_bytes (i : Instr) (s : State) : (ctrl i).mem.map MemCtrl.bytes = (dataAccess i s).map fun a => a.2.2 := by
  unfold ctrl dataAccess
  cases expansion i with
  | none => cases i <;> rfl
  | some j => cases j <;> rfl

/-- The loads of the load-use hazard are the instructions whose writeback source is Load, and SC (R336, R931). -/
theorem loadsResult_wbSource (i : Instr) :
    loadsResult i = ((ctrl i).wbSource == some .load || instrClass i == .sc) := by
  unfold ctrl loadsResult wordWbSource instrClass
  generalize (expansion i).getD i = j
  cases j <;> rfl

/-! ## Operands -/

namespace State

/-- A register written with the value it holds is unchanged. -/
theorem withReg_self (s : State) (n : RegName) : s.withReg n (s.readReg n) = s := by
  cases n with
  | x r =>
    simp only [withReg, readReg, writeX, readX]
    split <;> simp
  | f r => simp [withReg, readReg, readF]

/-- An instruction whose operands are what its registers hold runs in the state as it is. -/
theorem withOperands_self (s : State) (i : Instr) : s.withOperands i ((sources i).map s.readReg) = s := by
  unfold withOperands
  generalize sources i = l
  induction l with
  | nil => rfl
  | cons n l ih => simpa [List.foldl, withReg_self] using ih

end State
end Sys2Proof.Machine
end

