-- ==== Sys2Proof/Tests/Slice0.lean ====
section
/-! SUPPORT. The model's own tests: each refuses or gives what the spec says, worked out from spec/ and not from the model; and
for every obligation with hypotheses a witness that meets them. -/
namespace Sys2Proof.Tests
open Sys2Proof.Machine

-- One theorem at a time: in parallel, theorems that wait for one another each hold a thread with its stack.
set_option Elab.async false

/-! ## Small states -/

/-- A number in x register r. -/
def setX (r v : Nat) (s : State) : State := s.writeX (BitVec.ofNat 5 r) (BitVec.ofNat 64 v)

/-- A number in f register r, as an initial state has it. -/
def setF (r v : Nat) (s : State) : State := { s with f := s.f.setIfInBounds r (BitVec.ofNat 64 v) }

/-- The reset state with some x and f registers given. -/
def given (xs fs : List (Nat × Nat)) : State :=
  fs.foldl (fun s p => setF p.1 p.2 s) (xs.foldl (fun s p => setX p.1 p.2 s) State.reset)

/-- Eight bytes in RAM, as an image has them. -/
def put (a v : Nat) (s : State) : State :=
  { s.writeRam a 8 (BitVec.ofNat 64 v) with fetchLog := s.fetchLog, walkLog := s.walkLog }

/-- Some CSR fields changed. -/
def csrs (g : Csrs → Csrs) (s : State) : State := { s with csr := g s.csr }

/-- Some fields of mstatus changed. -/
def mst (g : Mstatus → Mstatus) (s : State) : State := csrs (fun c => { c with mstatus := g c.mstatus }) s

/-- In another mode. -/
def inMode (p : Priv) (s : State) : State := { s with priv := p }

/-- What f says of the state after one instruction, if there is one. -/
def ran {α : Type} (i : Instr) (s : State) (f : State → α) : Option α :=
  match exec i s with
  | .next t => some (f t)
  | .fault _ => none
  | .refused _ => none

/-- What f says of the state after one step, if there is one. -/
def stepped {α : Type} (s : State) (f : State → α) : Option α :=
  match step s with
  | .next t => some (f t)
  | .fault _ => none
  | .refused _ => none

/-- The number in x register r. -/
def x (s : State) (r : Nat) : Nat := (s.readX (BitVec.ofNat 5 r)).toNat

abbrev givesX (i : Instr) (xs : List (Nat × Nat)) (rd v : Nat) : Prop := ran i (given xs []) (fun t => x t rd) = some v
abbrev givesXF (i : Instr) (xs fs : List (Nat × Nat)) (rd v fl : Nat) : Prop :=
  ran i (given xs fs) (fun t => (x t rd, t.csr.fflags.toNat)) = some (v, fl)
abbrev givesF (i : Instr) (xs fs : List (Nat × Nat)) (rd v fl : Nat) : Prop :=
  ran i (given xs fs) (fun t => ((t.readF (BitVec.ofNat 5 rd)).toNat, t.csr.fflags.toNat)) = some (v, fl)

/-- The M-mode trap registers and minstret: mcause, mtval, mepc, minstret. -/
def trapped (t : State) : Nat × Nat × Nat × Nat :=
  (t.csr.mcause.toNat, t.csr.mtval.toNat, t.csr.mepc.toNat, t.csr.minstret.toNat)

/-! ## Well-formedness: one ill-formed term for each check -/

theorem test_wellFormed_refuses :
    (Instr.jal 1#5 3#21).wellFormed = false ∧ (Instr.beq 1#5 2#5 1#13).wellFormed = false ∧
    (Instr.bgeu 1#5 2#5 5#13).wellFormed = false ∧ (Instr.cAddi4spn 0#3 0#10).wellFormed = false ∧
    (Instr.cAddi4spn 0#3 6#10).wellFormed = false ∧ (Instr.cLd 0#3 0#3 4#8).wellFormed = false ∧
    (Instr.cFsd 0#3 0#3 1#8).wellFormed = false ∧ (Instr.cLw 0#3 0#3 2#7).wellFormed = false ∧
    (Instr.cAddi 0#5 1#6).wellFormed = false ∧ (Instr.cAddiw 0#5 1#6).wellFormed = false ∧
    (Instr.cAddi16sp 0#10).wellFormed = false ∧ (Instr.cAddi16sp 8#10).wellFormed = false ∧
    (Instr.cLui 2#5 1#6).wellFormed = false ∧ (Instr.cLui 3#5 0#6).wellFormed = false ∧
    (Instr.cJ 1#12).wellFormed = false ∧ (Instr.cBeqz 0#3 1#9).wellFormed = false ∧
    (Instr.cFldsp 1#5 4#9).wellFormed = false ∧ (Instr.cLwsp 0#5 4#8).wellFormed = false ∧
    (Instr.cLwsp 1#5 2#8).wellFormed = false ∧ (Instr.cLdsp 0#5 8#9).wellFormed = false ∧
    (Instr.cLdsp 1#5 4#9).wellFormed = false ∧ (Instr.cJr 0#5).wellFormed = false ∧
    (Instr.cJalr 0#5).wellFormed = false ∧ (Instr.cMv 1#5 0#5).wellFormed = false ∧
    (Instr.cAdd 1#5 0#5).wellFormed = false ∧ (Instr.cSdsp 1#5 4#9).wellFormed = false ∧
    (Instr.cSwsp 1#5 2#8).wellFormed = false := by decide

/-! ## Decoding: for every row of the opcode table one word, written bit by bit from the row's encoding -/

theorem test_decode_integer_1 :
    decode32 0b1111001_01010_01110_101_01011_0110111#32 = some (.lui 11#5 0xF2A75#20) ∧
    decode32 0b1110010_10001_00110_011_00101_0010111#32 = some (.auipc 5#5 0xE5133#20) ∧
    decode32 0b1001001_01001_00010_000_10101_0010011#32 = some (.addi 21#5 2#5 0x929#12) ∧
    decode32 0b1001100_00010_10010_010_11011_0010011#32 = some (.slti 27#5 18#5 0x982#12) ∧
    decode32 0b1000111_01110_10011_011_01100_0010011#32 = some (.sltiu 12#5 19#5 0x8EE#12) ∧
    decode32 0b1011011_10000_10001_100_11110_0010011#32 = some (.xori 30#5 17#5 0xB70#12) ∧
    decode32 0b1110111_10001_00011_110_00010_0010011#32 = some (.ori 2#5 3#5 0xEF1#12) ∧
    decode32 0b1011110_11010_00011_111_01110_0010011#32 = some (.andi 14#5 3#5 0xBDA#12) ∧
    decode32 0b0000000_11100_10010_001_00011_0010011#32 = some (.slli 3#5 18#5 0x1C#6) ∧
    decode32 0b0000001_00101_11011_101_00010_0010011#32 = some (.srli 2#5 27#5 0x25#6) ∧
    decode32 0b0100000_01111_11111_101_00100_0010011#32 = some (.srai 4#5 31#5 0xF#6) ∧
    decode32 0b0000000_10011_10101_000_10101_0110011#32 = some (.add 21#5 21#5 19#5) ∧
    decode32 0b0100000_10011_00010_000_11111_0110011#32 = some (.sub 31#5 2#5 19#5) ∧
    decode32 0b0000000_00010_01101_001_10011_0110011#32 = some (.sll 19#5 13#5 2#5) ∧
    decode32 0b0000000_10010_00010_010_01000_0110011#32 = some (.slt 8#5 2#5 18#5) ∧
    decode32 0b0000000_01010_00101_011_11100_0110011#32 = some (.sltu 28#5 5#5 10#5) ∧
    decode32 0b0000000_10010_00101_100_01110_0110011#32 = some (.xor 14#5 5#5 18#5) ∧
    decode32 0b0000000_01010_10011_101_00100_0110011#32 = some (.srl 4#5 19#5 10#5) ∧
    decode32 0b0100000_10110_11011_101_10010_0110011#32 = some (.sra 18#5 27#5 22#5) ∧
    decode32 0b0000000_10011_00100_110_00110_0110011#32 = some (.or 6#5 4#5 19#5) ∧
    decode32 0b0000000_00111_10101_111_10011_0110011#32 = some (.and 19#5 21#5 7#5) ∧
    decode32 0b1000110_00100_00100_000_01100_0011011#32 = some (.addiw 12#5 4#5 0x8C4#12) ∧
    decode32 0b0000000_10011_00011_001_10111_0011011#32 = some (.slliw 23#5 3#5 19#5) ∧
    decode32 0b0000000_00111_10100_101_00010_0011011#32 = some (.srliw 2#5 20#5 7#5) := by decide

theorem test_decode_integer_2 :
    decode32 0b0100000_10010_10110_101_10000_0011011#32 = some (.sraiw 16#5 22#5 18#5) ∧
    decode32 0b0000000_01011_11001_000_01110_0111011#32 = some (.addw 14#5 25#5 11#5) ∧
    decode32 0b0100000_11110_10011_000_01111_0111011#32 = some (.subw 15#5 19#5 30#5) ∧
    decode32 0b0000000_01010_01100_001_01111_0111011#32 = some (.sllw 15#5 12#5 10#5) ∧
    decode32 0b0000000_00110_11010_101_01000_0111011#32 = some (.srlw 8#5 26#5 6#5) ∧
    decode32 0b0100000_01000_11001_101_10111_0111011#32 = some (.sraw 23#5 25#5 8#5) := by decide

theorem test_decode_control :
    decode32 0b1001101_01110_00100_110_00011_1101111#32 = some (.jal 3#5 0x1261AE#21) ∧
    decode32 0b1111111_01100_10001_000_01010_1100111#32 = some (.jalr 10#5 17#5 0xFEC#12) ∧
    decode32 0b1111010_01011_11101_000_11000_1100011#32 = some (.beq 29#5 11#5 0x1758#13) ∧
    decode32 0b1011011_01010_01111_001_11100_1100011#32 = some (.bne 15#5 10#5 0x137C#13) ∧
    decode32 0b1000011_00100_00011_100_00010_1100011#32 = some (.blt 3#5 4#5 0x1062#13) ∧
    decode32 0b1000001_00110_01110_101_11011_1100011#32 = some (.bge 14#5 6#5 0x183A#13) ∧
    decode32 0b1101110_00101_01011_110_11111_1100011#32 = some (.bltu 11#5 5#5 0x1DDE#13) ∧
    decode32 0b1001010_01110_10000_111_00010_1100011#32 = some (.bgeu 16#5 14#5 0x1142#13) := by decide

theorem test_decode_loadStore :
    decode32 0b1001001_11110_10110_000_11111_0000011#32 = some (.lb 31#5 22#5 0x93E#12) ∧
    decode32 0b1001001_01100_10010_001_11001_0000011#32 = some (.lh 25#5 18#5 0x92C#12) ∧
    decode32 0b1101000_11000_11101_010_11010_0000011#32 = some (.lw 26#5 29#5 0xD18#12) ∧
    decode32 0b1011001_00000_01011_011_01011_0000011#32 = some (.ld 11#5 11#5 0xB20#12) ∧
    decode32 0b1111111_10011_10100_100_01100_0000011#32 = some (.lbu 12#5 20#5 0xFF3#12) ∧
    decode32 0b1111010_01101_11010_101_10011_0000011#32 = some (.lhu 19#5 26#5 0xF4D#12) ∧
    decode32 0b1001100_00000_11011_110_00011_0000011#32 = some (.lwu 3#5 27#5 0x980#12) ∧
    decode32 0b1111100_01001_11111_000_10110_0100011#32 = some (.sb 31#5 9#5 0xF96#12) ∧
    decode32 0b1001000_10110_10111_001_01011_0100011#32 = some (.sh 23#5 22#5 0x90B#12) ∧
    decode32 0b1011001_11000_00010_010_11010_0100011#32 = some (.sw 2#5 24#5 0xB3A#12) ∧
    decode32 0b1001010_10101_01010_011_00000_0100011#32 = some (.sd 10#5 21#5 0x940#12) := by decide

theorem test_decode_mulDiv :
    decode32 0b0000001_01111_11011_000_10110_0110011#32 = some (.mul 22#5 27#5 15#5) ∧
    decode32 0b0000001_01101_10111_001_01010_0110011#32 = some (.mulh 10#5 23#5 13#5) ∧
    decode32 0b0000001_01100_10110_010_11101_0110011#32 = some (.mulhsu 29#5 22#5 12#5) ∧
    decode32 0b0000001_01111_11111_011_00001_0110011#32 = some (.mulhu 1#5 31#5 15#5) ∧
    decode32 0b0000001_10100_00110_100_01100_0110011#32 = some (.div 12#5 6#5 20#5) ∧
    decode32 0b0000001_00010_10000_101_00100_0110011#32 = some (.divu 4#5 16#5 2#5) ∧
    decode32 0b0000001_01010_11001_110_00111_0110011#32 = some (.rem 7#5 25#5 10#5) ∧
    decode32 0b0000001_01000_11000_111_00101_0110011#32 = some (.remu 5#5 24#5 8#5) ∧
    decode32 0b0000001_11110_01101_000_01101_0111011#32 = some (.mulw 13#5 13#5 30#5) ∧
    decode32 0b0000001_00011_10000_100_11100_0111011#32 = some (.divw 28#5 16#5 3#5) ∧
    decode32 0b0000001_01101_01111_101_00110_0111011#32 = some (.divuw 6#5 15#5 13#5) ∧
    decode32 0b0000001_11101_01001_110_10010_0111011#32 = some (.remw 18#5 9#5 29#5) ∧
    decode32 0b0000001_01110_11011_111_00101_0111011#32 = some (.remuw 5#5 27#5 14#5) := by decide

theorem test_decode_atomic :
    decode32 0b0001001_00000_10110_010_01100_0101111#32 = some (.lrW 0#1 1#1 12#5 22#5) ∧
    decode32 0b0001110_00110_00011_010_00101_0101111#32 = some (.scW 1#1 0#1 5#5 3#5 6#5) ∧
    decode32 0b0001001_00000_01000_011_10110_0101111#32 = some (.lrD 0#1 1#1 22#5 8#5) ∧
    decode32 0b0001110_00110_10011_011_11011_0101111#32 = some (.scD 1#1 0#1 27#5 19#5 6#5) ∧
    decode32 0b0000101_01110_00101_010_00001_0101111#32 = some (.amoswapW 0#1 1#1 1#5 5#5 14#5) ∧
    decode32 0b0000010_10111_00101_010_11111_0101111#32 = some (.amoaddW 1#1 0#1 31#5 5#5 23#5) ∧
    decode32 0b0010001_11001_11100_010_11101_0101111#32 = some (.amoxorW 0#1 1#1 29#5 28#5 25#5) ∧
    decode32 0b0110010_00100_01101_010_01101_0101111#32 = some (.amoandW 1#1 0#1 13#5 13#5 4#5) ∧
    decode32 0b0100001_00011_00111_010_00010_0101111#32 = some (.amoorW 0#1 1#1 2#5 7#5 3#5) ∧
    decode32 0b1000010_01011_00100_010_00110_0101111#32 = some (.amominW 1#1 0#1 6#5 4#5 11#5) ∧
    decode32 0b1010001_00101_10011_010_00001_0101111#32 = some (.amomaxW 0#1 1#1 1#5 19#5 5#5) ∧
    decode32 0b1100010_00011_00001_010_10100_0101111#32 = some (.amominuW 1#1 0#1 20#5 1#5 3#5) ∧
    decode32 0b1110001_01001_10101_010_00101_0101111#32 = some (.amomaxuW 0#1 1#1 5#5 21#5 9#5) ∧
    decode32 0b0000110_00100_00100_011_10000_0101111#32 = some (.amoswapD 1#1 0#1 16#5 4#5 4#5) ∧
    decode32 0b0000001_01010_10000_011_10000_0101111#32 = some (.amoaddD 0#1 1#1 16#5 16#5 10#5) ∧
    decode32 0b0010010_01011_11000_011_00100_0101111#32 = some (.amoxorD 1#1 0#1 4#5 24#5 11#5) ∧
    decode32 0b0110001_00110_10111_011_11011_0101111#32 = some (.amoandD 0#1 1#1 27#5 23#5 6#5) ∧
    decode32 0b0100010_10001_11111_011_11111_0101111#32 = some (.amoorD 1#1 0#1 31#5 31#5 17#5) ∧
    decode32 0b1000001_11110_10010_011_10111_0101111#32 = some (.amominD 0#1 1#1 23#5 18#5 30#5) ∧
    decode32 0b1010010_00011_11100_011_10101_0101111#32 = some (.amomaxD 1#1 0#1 21#5 28#5 3#5) ∧
    decode32 0b1100001_01100_00110_011_11110_0101111#32 = some (.amominuD 0#1 1#1 30#5 6#5 12#5) ∧
    decode32 0b1110010_10100_01000_011_10101_0101111#32 = some (.amomaxuD 1#1 0#1 21#5 8#5 20#5) := by decide

theorem test_decode_fpSingle_1 :
    decode32 0b1111110_00011_11010_010_11010_0000111#32 = some (.flw 26#5 26#5 0xFC3#12) ∧
    decode32 0b1011001_11100_11001_010_00000_0100111#32 = some (.fsw 25#5 28#5 0xB20#12) ∧
    decode32 0b1100000_01101_11011_101_01000_1000011#32 = some (.fmaddS 5#3 8#5 27#5 13#5 24#5) ∧
    decode32 0b1000000_10001_00111_110_01000_1000111#32 = some (.fmsubS 6#3 8#5 7#5 17#5 16#5) ∧
    decode32 0b1101000_00001_00001_000_11000_1001011#32 = some (.fnmsubS 0#3 24#5 1#5 1#5 26#5) ∧
    decode32 0b1011100_00111_01001_001_10000_1001111#32 = some (.fnmaddS 1#3 16#5 9#5 7#5 23#5) ∧
    decode32 0b0000000_01111_01100_010_11111_1010011#32 = some (.faddS 2#3 31#5 12#5 15#5) ∧
    decode32 0b0000100_01100_11000_011_11110_1010011#32 = some (.fsubS 3#3 30#5 24#5 12#5) ∧
    decode32 0b0001000_00100_01000_100_00011_1010011#32 = some (.fmulS 4#3 3#5 8#5 4#5) ∧
    decode32 0b0001100_01011_00111_111_10000_1010011#32 = some (.fdivS 7#3 16#5 7#5 11#5) ∧
    decode32 0b0101100_00000_10100_101_10000_1010011#32 = some (.fsqrtS 5#3 16#5 20#5) ∧
    decode32 0b0010000_11011_10100_000_11101_1010011#32 = some (.fsgnjS 29#5 20#5 27#5) ∧
    decode32 0b0010000_11110_10000_001_00001_1010011#32 = some (.fsgnjnS 1#5 16#5 30#5) ∧
    decode32 0b0010000_11010_01100_010_10101_1010011#32 = some (.fsgnjxS 21#5 12#5 26#5) ∧
    decode32 0b0010100_11011_00011_000_10101_1010011#32 = some (.fminS 21#5 3#5 27#5) ∧
    decode32 0b0010100_11110_00100_001_10110_1010011#32 = some (.fmaxS 22#5 4#5 30#5) ∧
    decode32 0b1100000_00000_10111_100_11010_1010011#32 = some (.fcvtWS 4#3 26#5 23#5) ∧
    decode32 0b1100000_00001_10000_111_00111_1010011#32 = some (.fcvtWuS 7#3 7#5 16#5) ∧
    decode32 0b1110000_00000_00110_000_11101_1010011#32 = some (.fmvXW 29#5 6#5) ∧
    decode32 0b1010000_10101_11010_010_01110_1010011#32 = some (.feqS 14#5 26#5 21#5) ∧
    decode32 0b1010000_11010_00011_001_01011_1010011#32 = some (.fltS 11#5 3#5 26#5) ∧
    decode32 0b1111000_00000_11000_000_11111_1010011#32 = some (.fmvWX 31#5 24#5) ∧
    decode32 0b1010000_01101_01111_000_01101_1010011#32 = some (.fleS 13#5 15#5 13#5) ∧
    decode32 0b1110000_00000_11111_001_11000_1010011#32 = some (.fclassS 24#5 31#5) := by decide

theorem test_decode_fpSingle_2 :
    decode32 0b1101000_00000_00110_100_11000_1010011#32 = some (.fcvtSW 4#3 24#5 6#5) ∧
    decode32 0b1101000_00001_00001_111_00101_1010011#32 = some (.fcvtSWu 7#3 5#5 1#5) ∧
    decode32 0b1100000_00010_11101_101_10011_1010011#32 = some (.fcvtLS 5#3 19#5 29#5) ∧
    decode32 0b1100000_00011_10101_110_11010_1010011#32 = some (.fcvtLuS 6#3 26#5 21#5) ∧
    decode32 0b1101000_00010_11011_000_10100_1010011#32 = some (.fcvtSL 0#3 20#5 27#5) ∧
    decode32 0b1101000_00011_10110_001_10000_1010011#32 = some (.fcvtSLu 1#3 16#5 22#5) := by decide

theorem test_decode_fpDouble_1 :
    decode32 0b1010011_11111_01100_011_11110_0000111#32 = some (.fld 30#5 12#5 0xA7F#12) ∧
    decode32 0b1010000_10010_10010_011_11001_0100111#32 = some (.fsd 18#5 18#5 0xA19#12) ∧
    decode32 0b1010101_11000_11010_100_00001_1000011#32 = some (.fmaddD 4#3 1#5 26#5 24#5 21#5) ∧
    decode32 0b0010101_11110_11000_111_10001_1000111#32 = some (.fmsubD 7#3 17#5 24#5 30#5 5#5) ∧
    decode32 0b1110001_11011_00111_101_11100_1001011#32 = some (.fnmsubD 5#3 28#5 7#5 27#5 28#5) ∧
    decode32 0b0101001_00111_01001_110_00001_1001111#32 = some (.fnmaddD 6#3 1#5 9#5 7#5 10#5) ∧
    decode32 0b0000001_10011_11001_000_01000_1010011#32 = some (.faddD 0#3 8#5 25#5 19#5) ∧
    decode32 0b0000101_01110_10010_001_01001_1010011#32 = some (.fsubD 1#3 9#5 18#5 14#5) ∧
    decode32 0b0001001_11110_00010_010_00101_1010011#32 = some (.fmulD 2#3 5#5 2#5 30#5) ∧
    decode32 0b0001101_01111_11101_011_01100_1010011#32 = some (.fdivD 3#3 12#5 29#5 15#5) ∧
    decode32 0b0101101_00000_11011_100_10011_1010011#32 = some (.fsqrtD 4#3 19#5 27#5) ∧
    decode32 0b0010001_01110_10001_000_11101_1010011#32 = some (.fsgnjD 29#5 17#5 14#5) ∧
    decode32 0b0010001_11101_11110_001_11011_1010011#32 = some (.fsgnjnD 27#5 30#5 29#5) ∧
    decode32 0b0010001_10010_00101_010_10001_1010011#32 = some (.fsgnjxD 17#5 5#5 18#5) ∧
    decode32 0b0010101_10001_10001_000_00101_1010011#32 = some (.fminD 5#5 17#5 17#5) ∧
    decode32 0b0010101_01111_11100_001_00001_1010011#32 = some (.fmaxD 1#5 28#5 15#5) ∧
    decode32 0b0100000_00001_10100_010_00110_1010011#32 = some (.fcvtSD 2#3 6#5 20#5) ∧
    decode32 0b0100001_00000_11010_011_11001_1010011#32 = some (.fcvtDS 3#3 25#5 26#5) ∧
    decode32 0b1010001_00101_00110_010_00101_1010011#32 = some (.feqD 5#5 6#5 5#5) ∧
    decode32 0b1010001_11000_10100_001_10000_1010011#32 = some (.fltD 16#5 20#5 24#5) ∧
    decode32 0b1010001_00010_10010_000_00100_1010011#32 = some (.fleD 4#5 18#5 2#5) ∧
    decode32 0b1110001_00000_10110_001_01011_1010011#32 = some (.fclassD 11#5 22#5) ∧
    decode32 0b1100001_00000_10010_000_10001_1010011#32 = some (.fcvtWD 0#3 17#5 18#5) ∧
    decode32 0b1100001_00001_11001_001_11010_1010011#32 = some (.fcvtWuD 1#3 26#5 25#5) := by decide

theorem test_decode_fpDouble_2 :
    decode32 0b1101001_00000_10010_010_11101_1010011#32 = some (.fcvtDW 2#3 29#5 18#5) ∧
    decode32 0b1101001_00001_00111_011_01000_1010011#32 = some (.fcvtDWu 3#3 8#5 7#5) ∧
    decode32 0b1100001_00010_11001_100_00010_1010011#32 = some (.fcvtLD 4#3 2#5 25#5) ∧
    decode32 0b1100001_00011_01111_111_10001_1010011#32 = some (.fcvtLuD 7#3 17#5 15#5) ∧
    decode32 0b1110001_00000_00001_000_10010_1010011#32 = some (.fmvXD 18#5 1#5) ∧
    decode32 0b1101001_00010_11110_110_11101_1010011#32 = some (.fcvtDL 6#3 29#5 30#5) ∧
    decode32 0b1101001_00011_01011_000_01111_1010011#32 = some (.fcvtDLu 0#3 15#5 11#5) ∧
    decode32 0b1111001_00000_10001_000_10100_1010011#32 = some (.fmvDX 20#5 17#5) := by decide

theorem test_decode_system :
    decode32 0b0000000_00000_00000_000_00000_1110011#32 = some .ecall ∧
    decode32 0b0000000_00001_00000_000_00000_1110011#32 = some .ebreak ∧
    decode32 0b0011000_00010_00000_000_00000_1110011#32 = some .mret ∧
    decode32 0b0001000_00010_00000_000_00000_1110011#32 = some .sret ∧
    decode32 0b0001000_00101_00000_000_00000_1110011#32 = some .wfi ∧
    decode32 0b0001001_10001_10100_000_00000_1110011#32 = some (.sfenceVma 20#5 17#5) ∧
    decode32 0b0100110_00101_01111_000_10001_0001111#32 = some (.fence 4#4 12#4 5#4 15#5 17#5) ∧
    decode32 0b1000100_01001_11010_001_10000_0001111#32 = some (.fenceI 0x889#12 26#5 16#5) ∧
    decode32 0b1111000_10001_01000_001_10001_1110011#32 = some (.csrrw 17#5 0xF11#12 8#5) ∧
    decode32 0b1000011_00000_11101_010_10111_1110011#32 = some (.csrrs 23#5 0x860#12 29#5) ∧
    decode32 0b1111000_10100_11110_011_11101_1110011#32 = some (.csrrc 29#5 0xF14#12 30#5) ∧
    decode32 0b1110110_00100_10010_101_01001_1110011#32 = some (.csrrwi 9#5 0xEC4#12 18#5) ∧
    decode32 0b1111000_11000_00111_110_11101_1110011#32 = some (.csrrsi 29#5 0xF18#12 7#5) ∧
    decode32 0b0111001_01010_00101_111_11011_1110011#32 = some (.csrrci 27#5 0x72A#12 5#5) := by decide

theorem test_decode_compressed_1 :
    decode16 0b000_110_001_11_100_00#16 = some (.cAddi4spn 4#3 0x7C#10) ∧
    decode16 0b001_010_100_01_100_00#16 = some (.cFld 4#3 4#3 0x50#8) ∧
    decode16 0b010_011_110_10_001_00#16 = some (.cLw 1#3 6#3 0x1C#7) ∧
    decode16 0b011_110_001_00_100_00#16 = some (.cLd 4#3 1#3 0x30#8) ∧
    decode16 0b101_001_110_11_011_00#16 = some (.cFsd 6#3 3#3 0xC8#8) ∧
    decode16 0b110_010_001_10_111_00#16 = some (.cSw 1#3 7#3 0x14#7) ∧
    decode16 0b111_101_110_10_110_00#16 = some (.cSd 6#3 6#3 0xA8#8) ∧
    decode16 0b000_000_000_11_000_01#16 = some (.cNop 0x18#6) ∧
    decode16 0b000_000_101_10_001_01#16 = some (.cAddi 5#5 0x11#6) ∧
    decode16 0b001_011_101_01_001_01#16 = some (.cAddiw 29#5 0x9#6) ∧
    decode16 0b010_011_111_11_110_01#16 = some (.cLi 31#5 0x1E#6) ∧
    decode16 0b011_100_010_11_011_01#16 = some (.cAddi16sp 0x2F0#10) ∧
    decode16 0b011_101_001_11_101_01#16 = some (.cLui 9#5 0x3D#6) ∧
    decode16 0b100_000_001_11_010_01#16 = some (.cSrli 1#3 0x1A#6) ∧
    decode16 0b100_001_100_01_011_01#16 = some (.cSrai 4#3 0xB#6) ∧
    decode16 0b100_110_110_10_110_01#16 = some (.cAndi 6#3 0x36#6) ∧
    decode16 0b100_011_010_00_010_01#16 = some (.cSub 2#3 2#3) ∧
    decode16 0b100_011_110_01_100_01#16 = some (.cXor 6#3 4#3) ∧
    decode16 0b100_011_101_10_100_01#16 = some (.cOr 5#3 4#3) ∧
    decode16 0b100_011_011_11_100_01#16 = some (.cAnd 3#3 4#3) ∧
    decode16 0b100_111_010_00_011_01#16 = some (.cSubw 2#3 3#3) ∧
    decode16 0b100_111_011_01_001_01#16 = some (.cAddw 3#3 1#3) ∧
    decode16 0b101_101_100_11_110_01#16 = some (.cJ 0xB8E#12) ∧
    decode16 0b110_001_011_00_010_01#16 = some (.cBeqz 3#3 0xA#9) := by decide

theorem test_decode_compressed_2 :
    decode16 0b111_111_011_00_100_01#16 = some (.cBnez 3#3 0x11C#9) ∧
    decode16 0b000_001_111_11_101_10#16 = some (.cSlli 15#5 0x1D#6) ∧
    decode16 0b001_010_111_01_000_10#16 = some (.cFldsp 23#5 0x8#9) ∧
    decode16 0b010_001_101_10_101_10#16 = some (.cLwsp 13#5 0x54#8) ∧
    decode16 0b011_010_001_00_101_10#16 = some (.cLdsp 17#5 0x140#9) ∧
    decode16 0b100_001_010_00_000_10#16 = some (.cJr 10#5) ∧
    decode16 0b100_010_001_11_111_10#16 = some (.cMv 17#5 31#5) ∧
    decode16 0b100_100_000_00_000_10#16 = some .cEbreak ∧
    decode16 0b100_100_011_00_000_10#16 = some (.cJalr 3#5) ∧
    decode16 0b100_100_100_11_110_10#16 = some (.cAdd 4#5 30#5) ∧
    decode16 0b101_110_001_11_010_10#16 = some (.cFsdsp 26#5 0x70#9) ∧
    decode16 0b110_011_000_11_101_10#16 = some (.cSwsp 29#5 0x18#8) ∧
    decode16 0b111_001_010_00_011_10#16 = some (.cSdsp 3#5 0x88#9) := by decide

/-- spec/95_test_vectors.md B.9 and B.10: encodings that are illegal. -/
theorem test_illegal_words :
    [0x0000#16, 0x0004#16, 0x8000#16, 0x2001#16, 0x6101#16, 0x6181#16, 0x9C41#16, 0x4002#16, 0x6002#16, 0x8002#16].all
      (fun p => (decode16 p).isNone) = true ∧
    [0x0200969B#32, 0x1014332F#32, 0x04C5F553#32, 0xFFFFFFFF#32, 0x0000000B#32, 0x00002063#32, 0x00007003#32,
        0x04000033#32, 0x00001067#32, 0x00200073#32, 0x7B200073#32, 0x30200173#32, 0x00004073#32].all
      (fun w => (decode32 w).isNone) = true := by decide

/-- spec/95_test_vectors.md B.9: parcels, and the 32-bit words of their expansions. -/
theorem test_expansions :
    [(0x1FE4#16, 0x3FC10493#32), (0x2480#16, 0x0084B407#32), (0x4020#16, 0x04042403#32), (0xA880#16, 0x0084B827#32),
        (0xFDE8#16, 0x0EA5BC23#32), (0x157D#16, 0xFFF50513#32), (0x5501#16, 0xFE000513#32), (0x7139#16, 0xFC010113#32),
        (0x757D#16, 0xFFFFF537#32), (0x947D#16, 0x43F45413#32), (0x9C05#16, 0x4094043B#32), (0xAFFD#16, 0x7FE0006F#32),
        (0xDC75#16, 0xFE040EE3#32), (0x20A2#16, 0x00813087#32), (0x8082#16, 0x00008067#32), (0x852E#16, 0x00B00533#32),
        (0x9282#16, 0x000280E7#32), (0xC206#16, 0x00112223#32), (0xE406#16, 0x00113423#32), (0x9002#16, 0x00100073#32),
        (0x0005#16, 0x00100013#32)].all
      (fun p => decide (((decode16 p.1).bind expansion).map encode = some (.word p.2))) = true := by decide +kernel

/-! ## One instruction at a time: rows of spec/95_test_vectors.md -/

/-- spec/95_test_vectors.md B.1, rows I1 to I16. -/
theorem test_integer_1 :
    givesX (.add 3 1 2) [(1, 0x7FFFFFFFFFFFFFFF), (2, 1)] 3 0x8000000000000000 ∧
    givesX (.sub 3 1 2) [(1, 0), (2, 1)] 3 0xFFFFFFFFFFFFFFFF ∧
    givesX (.addw 3 1 2) [(1, 0x7FFFFFFF), (2, 1)] 3 0xFFFFFFFF80000000 ∧
    givesX (.subw 3 1 2) [(1, 0), (2, 0x80000000)] 3 0xFFFFFFFF80000000 ∧
    givesX (.addiw 3 1 (BitVec.ofInt 12 (0))) [(1, 0x80000000)] 3 0xFFFFFFFF80000000 ∧
    givesX (.sll 3 1 2) [(1, 1), (2, 0x41)] 3 2 ∧
    givesX (.sllw 3 1 2) [(1, 1), (2, 0x3F)] 3 0xFFFFFFFF80000000 ∧
    givesX (.srl 3 1 2) [(1, 0x8000000000000000), (2, 0x3F)] 3 1 ∧
    givesX (.sra 3 1 2) [(1, 0x8000000000000000), (2, 0x3F)] 3 0xFFFFFFFFFFFFFFFF ∧
    givesX (.srlw 3 1 2) [(1, 0xFFFFFFFF80000000), (2, 0x1F)] 3 1 ∧
    givesX (.sraw 3 1 2) [(1, 0x80000000), (2, 4)] 3 0xFFFFFFFFF8000000 ∧
    givesX (.srliw 3 1 0) [(1, 0xFFFFFFFF80000000)] 3 0xFFFFFFFF80000000 ∧
    givesX (.slliw 3 1 31) [(1, 1)] 3 0xFFFFFFFF80000000 ∧
    givesX (.sraiw 3 1 31) [(1, 0x80000000)] 3 0xFFFFFFFFFFFFFFFF := by decide

/-- spec/95_test_vectors.md B.1, rows I17 to I32. -/
theorem test_integer_2 :
    givesX (.slli 3 1 63) [(1, 3)] 3 0x8000000000000000 ∧
    givesX (.srli 3 1 4) [(1, 0xF000000000000000)] 3 0xF00000000000000 ∧
    givesX (.srai 3 1 4) [(1, 0xF000000000000000)] 3 0xFF00000000000000 ∧
    givesX (.slt 3 1 2) [(1, 0xFFFFFFFFFFFFFFFF), (2, 1)] 3 1 ∧
    givesX (.sltu 3 1 2) [(1, 0xFFFFFFFFFFFFFFFF), (2, 1)] 3 0 ∧
    givesX (.slti 3 1 (BitVec.ofInt 12 (-1))) [(1, 0)] 3 0 ∧
    givesX (.sltiu 3 1 (BitVec.ofInt 12 (-1))) [(1, 0xFFFFFFFFFFFFFFFE)] 3 1 ∧
    givesX (.xori 3 1 (BitVec.ofInt 12 (-1))) [(1, 0xF0F)] 3 0xFFFFFFFFFFFFF0F0 ∧
    givesX (.ori 3 1 (BitVec.ofInt 12 (-2048))) [(1, 0)] 3 0xFFFFFFFFFFFFF800 ∧
    givesX (.andi 3 1 (BitVec.ofInt 12 (2047))) [(1, 0xFFFFFFFFFFFFFFFF)] 3 0x7FF ∧
    givesX (.and 3 1 2) [(1, 0xFF00FF00), (2, 0xFF00FF0)] 3 0xF000F00 ∧
    givesX (.or 3 1 2) [(1, 0xFF00FF00), (2, 0xFF00FF0)] 3 0xFFF0FFF0 ∧
    givesX (.xor 3 1 2) [(1, 0xFF00FF00), (2, 0xFF00FF0)] 3 0xF0F0F0F0 ∧
    givesX (.addi 3 1 (BitVec.ofInt 12 (-2048))) [(1, 0)] 3 0xFFFFFFFFFFFFF800 := by decide

/-- spec/95_test_vectors.md B.1, rows I33 to I33. -/
theorem test_integer_3 :
    givesX (.lui 3 524288) [] 3 0xFFFFFFFF80000000 := by decide

/-- spec/95_test_vectors.md B.4, rows D1 to D17. -/
theorem test_muldiv_1 :
    givesX (.mul 5 1 2) [(1, 0x100000000), (2, 0x100000000)] 5 0 ∧
    givesX (.mul 5 1 2) [(1, 0xFFFFFFFFFFFFFFFF), (2, 0xFFFFFFFFFFFFFFFF)] 5 1 ∧
    givesX (.mulh 5 1 2) [(1, 0xFFFFFFFFFFFFFFFF), (2, 0xFFFFFFFFFFFFFFFF)] 5 0 ∧
    givesX (.mulh 5 1 2) [(1, 0x8000000000000000), (2, 0x8000000000000000)] 5 0x4000000000000000 ∧
    givesX (.mulhu 5 1 2) [(1, 0xFFFFFFFFFFFFFFFF), (2, 0xFFFFFFFFFFFFFFFF)] 5 0xFFFFFFFFFFFFFFFE ∧
    givesX (.mulhsu 5 1 2) [(1, 0xFFFFFFFFFFFFFFFF), (2, 0xFFFFFFFFFFFFFFFF)] 5 0xFFFFFFFFFFFFFFFF ∧
    givesX (.mulhsu 5 1 2) [(1, 1), (2, 0xFFFFFFFFFFFFFFFF)] 5 0 ∧
    givesX (.div 5 1 2) [(1, 0xFFFFFFFFFFFFFFF9), (2, 2)] 5 0xFFFFFFFFFFFFFFFD ∧
    givesX (.div 5 1 2) [(1, 7), (2, 0)] 5 0xFFFFFFFFFFFFFFFF ∧
    givesX (.divu 5 1 2) [(1, 0xFFFFFFFFFFFFFFF9), (2, 2)] 5 0x7FFFFFFFFFFFFFFC ∧
    givesX (.divu 5 1 2) [(1, 7), (2, 0)] 5 0xFFFFFFFFFFFFFFFF ∧
    givesX (.rem 5 1 2) [(1, 0xFFFFFFFFFFFFFFF9), (2, 2)] 5 0xFFFFFFFFFFFFFFFF ∧
    givesX (.rem 5 1 2) [(1, 7), (2, 0xFFFFFFFFFFFFFFFE)] 5 1 ∧
    givesX (.remu 5 1 2) [(1, 0xFFFFFFFFFFFFFFF9), (2, 2)] 5 1 := by decide

/-- spec/95_test_vectors.md B.4, rows D18 to D29. -/
theorem test_muldiv_2 :
    givesX (.remu 5 1 2) [(1, 0xFFFFFFFFFFFFFFF9), (2, 0)] 5 0xFFFFFFFFFFFFFFF9 ∧
    givesX (.mulw 5 1 2) [(1, 0x7FFFFFFF), (2, 2)] 5 0xFFFFFFFFFFFFFFFE ∧
    givesX (.mulw 5 1 2) [(1, 0x100000003), (2, 0x200000005)] 5 0xF ∧
    givesX (.divw 5 1 2) [(1, 0x1FFFFFFF9), (2, 2)] 5 0xFFFFFFFFFFFFFFFD ∧
    givesX (.divw 5 1 2) [(1, 0x80000000), (2, 0xFFFFFFFFFFFFFFFF)] 5 0xFFFFFFFF80000000 ∧
    givesX (.divuw 5 1 2) [(1, 0xFFFFFFFF), (2, 1)] 5 0xFFFFFFFFFFFFFFFF ∧
    givesX (.divuw 5 1 2) [(1, 0x80000000), (2, 0)] 5 0xFFFFFFFFFFFFFFFF ∧
    givesX (.remw 5 1 2) [(1, 0xFFFFFFFFFFFFFFF9), (2, 0)] 5 0xFFFFFFFFFFFFFFF9 ∧
    givesX (.remw 5 1 2) [(1, 0x80000000), (2, 0xFFFFFFFFFFFFFFFF)] 5 0 ∧
    givesX (.remuw 5 1 2) [(1, 0x80000005), (2, 0)] 5 0xFFFFFFFF80000005 ∧
    givesX (.remuw 5 1 2) [(1, 0xFFFFFFFF), (2, 0x10)] 5 0xF := by decide

/-- spec/95_test_vectors.md B.6, rows S1 to S30. -/
theorem test_fp_single_1 :
    givesF (.faddS 7 3 1 2) [] [(1, 0xFFFFFFFF3F800000), (2, 0xFFFFFFFF40000000)] 3 0xFFFFFFFF40400000 0 ∧
    givesF (.faddS 0 3 1 2) [] [(1, 0xFFFFFFFF3F800000), (2, 0xFFFFFFFF33800000)] 3 0xFFFFFFFF3F800000 1 ∧
    givesF (.faddS 3 3 1 2) [] [(1, 0xFFFFFFFF3F800000), (2, 0xFFFFFFFF33800000)] 3 0xFFFFFFFF3F800001 1 ∧
    givesF (.faddS 7 3 1 2) [] [(1, 0x3F800000), (2, 0xFFFFFFFF3F800000)] 3 0xFFFFFFFF7FC00000 0 ∧
    givesF (.faddS 2 3 1 2) [] [(1, 0xFFFFFFFF3F800000), (2, 0xFFFFFFFFBF800000)] 3 0xFFFFFFFF80000000 0 ∧
    givesF (.fsubS 7 3 1 2) [] [(1, 0xFFFFFFFF40400000), (2, 0xFFFFFFFF3F800000)] 3 0xFFFFFFFF40000000 0 ∧
    givesF (.fmulS 7 3 1 2) [] [(1, 0xFFFFFFFF7F7FFFFF), (2, 0xFFFFFFFF40000000)] 3 0xFFFFFFFF7F800000 5 ∧
    givesF (.fmulS 2 3 1 2) [] [(1, 0xFFFFFFFFFF7FFFFF), (2, 0xFFFFFFFF40000000)] 3 0xFFFFFFFFFF800000 5 ∧
    givesF (.fmulS 7 3 1 2) [] [(1, 0xFFFFFFFF00000001), (2, 0xFFFFFFFF3F000000)] 3 0xFFFFFFFF00000000 3 ∧
    givesF (.fdivS 7 3 1 2) [] [(1, 0xFFFFFFFF3F800000), (2, 0xFFFFFFFF40400000)] 3 0xFFFFFFFF3EAAAAAB 1 ∧
    givesF (.fdivS 7 3 1 2) [] [(1, 0xFFFFFFFF3F800000), (2, 0xFFFFFFFF00000000)] 3 0xFFFFFFFF7F800000 8 ∧
    givesF (.fsqrtS 7 3 1) [] [(1, 0xFFFFFFFF40000000)] 3 0xFFFFFFFF3FB504F3 1 := by decide +kernel

/-- spec/95_test_vectors.md B.6, rows S34 to S50. -/
theorem test_fp_single_2 :
    givesF (.fmaddS 7 4 1 2 3) [] [(1, 0xFFFFFFFF40000000), (2, 0xFFFFFFFF40400000), (3, 0xFFFFFFFF3F800000)] 4 0xFFFFFFFF40E00000 0 ∧
    givesF (.fmsubS 7 4 1 2 3) [] [(1, 0xFFFFFFFF40000000), (2, 0xFFFFFFFF40400000), (3, 0xFFFFFFFF3F800000)] 4 0xFFFFFFFF40A00000 0 ∧
    givesF (.fnmsubS 7 4 1 2 3) [] [(1, 0xFFFFFFFF40000000), (2, 0xFFFFFFFF40400000), (3, 0xFFFFFFFF3F800000)] 4 0xFFFFFFFFC0A00000 0 ∧
    givesF (.fnmaddS 7 4 1 2 3) [] [(1, 0xFFFFFFFF40000000), (2, 0xFFFFFFFF40400000), (3, 0xFFFFFFFF3F800000)] 4 0xFFFFFFFFC0E00000 0 ∧
    givesF (.fmaddS 7 4 1 2 3) [] [(1, 0xFFFFFFFF3F800001), (2, 0xFFFFFFFF3F800001), (3, 0xFFFFFFFFBF800002)] 4 0xFFFFFFFF28800000 0 ∧
    givesF (.fsgnjS 3 1 2) [] [(1, 0xFFFFFFFF3F800000), (2, 0xFFFFFFFFC0000000)] 3 0xFFFFFFFFBF800000 0 ∧
    givesF (.fsgnjnS 3 1 1) [] [(1, 0xFFFFFFFF3F800000)] 3 0xFFFFFFFFBF800000 0 ∧
    givesF (.fsgnjxS 3 1 1) [] [(1, 0xFFFFFFFFBF800000)] 3 0xFFFFFFFF3F800000 0 ∧
    givesF (.fminS 3 1 2) [] [(1, 0xFFFFFFFF7FC00000), (2, 0xFFFFFFFF3F800000)] 3 0xFFFFFFFF3F800000 0 ∧
    givesF (.fminS 3 1 2) [] [(1, 0xFFFFFFFF7F800001), (2, 0xFFFFFFFF3F800000)] 3 0xFFFFFFFF3F800000 16 ∧
    givesF (.fmaxS 3 1 2) [] [(1, 0xFFFFFFFF80000000), (2, 0xFFFFFFFF00000000)] 3 0xFFFFFFFF00000000 0 ∧
    givesXF (.feqS 5 1 2) [] [(1, 0xFFFFFFFF7FC00000), (2, 0xFFFFFFFF7FC00000)] 5 0 0 := by decide

/-- spec/95_test_vectors.md B.6, rows S53 to S78. -/
theorem test_fp_single_3 :
    givesXF (.fltS 5 1 2) [] [(1, 0xFFFFFFFF7FC00000), (2, 0xFFFFFFFF3F800000)] 5 0 16 ∧
    givesXF (.fleS 5 1 2) [] [(1, 0xFFFFFFFF40000000), (2, 0xFFFFFFFF40000000)] 5 1 0 ∧
    givesXF (.fcvtWS 7 5 1) [] [(1, 0xFFFFFFFF7FC00000)] 5 0x7FFFFFFF 16 ∧
    givesXF (.fcvtWS 7 5 1) [] [(1, 0xFFFFFFFF4F32D05E)] 5 0x7FFFFFFF 16 ∧
    givesXF (.fcvtWuS 7 5 1) [] [(1, 0xFFFFFFFFBF800000)] 5 0 16 ∧
    givesXF (.fcvtLS 7 5 1) [] [(1, 0xFFFFFFFF7F800000)] 5 0x7FFFFFFFFFFFFFFF 16 ∧
    givesXF (.fcvtLuS 7 5 1) [] [(1, 0xFFFFFFFF5F800000)] 5 0xFFFFFFFFFFFFFFFF 16 ∧
    givesF (.fcvtSW 7 3 5) [(5, 0x1000001)] [] 3 0xFFFFFFFF4B800000 1 ∧
    givesF (.fcvtSWu 7 3 5) [(5, 0xFFFFFFFF)] [] 3 0xFFFFFFFF4F800000 1 ∧
    givesF (.fcvtSL 7 3 5) [(5, 0x8000000000000000)] [] 3 0xFFFFFFFFDF000000 0 ∧
    givesF (.fcvtSLu 7 3 5) [(5, 0xFFFFFFFFFFFFFFFF)] [] 3 0xFFFFFFFF5F800000 1 ∧
    givesXF (.fmvXW 5 1) [] [(1, 0xFFFFFFFFBF800000)] 5 0xFFFFFFFFBF800000 0 := by decide

/-- spec/95_test_vectors.md B.6, rows S80 to S91. -/
theorem test_fp_single_4 :
    givesF (.fmvWX 3 5) [(5, 0x123456783F800000)] [] 3 0xFFFFFFFF3F800000 0 ∧
    givesXF (.fclassS 5 1) [] [(1, 0xFFFFFFFFFF800000)] 5 1 0 ∧
    givesXF (.fclassS 5 1) [] [(1, 0xFFFFFFFF7F800001)] 5 0x100 0 := by decide

/-- spec/95_test_vectors.md B.7, rows F1 to F15. -/
theorem test_fp_double_1 :
    givesF (.faddD 7 3 1 2) [] [(1, 0x3FB999999999999A), (2, 0x3FC999999999999A)] 3 0x3FD3333333333334 1 ∧
    givesF (.fsubD 7 3 1 2) [] [(1, 0x3FF0000000000000), (2, 0x3FF0000000000000)] 3 0 0 ∧
    givesF (.fmulD 7 3 1 2) [] [(1, 0x7FEFFFFFFFFFFFFF), (2, 0x4000000000000000)] 3 0x7FF0000000000000 5 ∧
    givesF (.fdivD 7 3 1 2) [] [(1, 0x3FF0000000000000), (2, 0x4008000000000000)] 3 0x3FD5555555555555 1 ∧
    givesF (.fsqrtD 7 3 1) [] [(1, 0x4000000000000000)] 3 0x3FF6A09E667F3BCD 1 ∧
    givesF (.fmaddD 7 4 1 2 3) [] [(1, 0x4000000000000000), (2, 0x4008000000000000), (3, 0x3FF0000000000000)] 4 0x401C000000000000 0 ∧
    givesF (.fmsubD 7 4 1 2 3) [] [(1, 0x4000000000000000), (2, 0x4008000000000000), (3, 0x3FF0000000000000)] 4 0x4014000000000000 0 ∧
    givesF (.fnmsubD 7 4 1 2 3) [] [(1, 0x4000000000000000), (2, 0x4008000000000000), (3, 0x3FF0000000000000)] 4 0xC014000000000000 0 ∧
    givesF (.fnmaddD 7 4 1 2 3) [] [(1, 0x4000000000000000), (2, 0x4008000000000000), (3, 0x3FF0000000000000)] 4 0xC01C000000000000 0 ∧
    givesF (.fsgnjD 3 1 2) [] [(1, 0x3FF0000000000000), (2, 0x8000000000000000)] 3 0xBFF0000000000000 0 ∧
    givesF (.fsgnjnD 3 1 2) [] [(1, 0x3FF0000000000000), (2, 0x3FF0000000000000)] 3 0xBFF0000000000000 0 ∧
    givesF (.fsgnjxD 3 1 2) [] [(1, 0xBFF0000000000000), (2, 0xBFF0000000000000)] 3 0x3FF0000000000000 0 := by decide +kernel

/-- spec/95_test_vectors.md B.7, rows F16 to F32. -/
theorem test_fp_double_2 :
    givesF (.fminD 3 1 2) [] [(1, 0x7FF0000000000001), (2, 0x4000000000000000)] 3 0x4000000000000000 16 ∧
    givesF (.fmaxD 3 1 2) [] [(1, 0x7FF8000000000000), (2, 0x7FF8000000000000)] 3 0x7FF8000000000000 0 ∧
    givesF (.fcvtSD 7 3 1) [] [(1, 0x3FF0000010000000)] 3 0xFFFFFFFF3F800000 1 ∧
    givesF (.fcvtSD 7 3 1) [] [(1, 0x7E37E43C8800759C)] 3 0xFFFFFFFF7F800000 5 ∧
    givesF (.fcvtDS 7 3 1) [] [(1, 0xFFFFFFFF7F800001)] 3 0x7FF8000000000000 16 ∧
    givesXF (.feqD 5 1 2) [] [(1, 0x3FF0000000000000), (2, 0x3FF0000000000000)] 5 1 0 ∧
    givesXF (.fltD 5 1 2) [] [(1, 0x7FF8000000000000), (2, 0x3FF0000000000000)] 5 0 16 ∧
    givesXF (.fleD 5 1 2) [] [(1, 0x8000000000000000), (2, 0)] 5 1 0 ∧
    givesXF (.fclassD 5 1) [] [(1, 1)] 5 0x20 0 ∧
    givesXF (.fcvtWD 7 5 1) [] [(1, 0x41E0000000000000)] 5 0x7FFFFFFF 16 ∧
    givesXF (.fcvtWuD 7 5 1) [] [(1, 0x41EFFFFFFFE00000)] 5 0xFFFFFFFFFFFFFFFF 0 ∧
    givesF (.fcvtDW 7 3 5) [(5, 0xFFFFFFFF80000000)] [] 3 0xC1E0000000000000 0 := by decide

/-- spec/95_test_vectors.md B.7, rows F33 to F41. -/
theorem test_fp_double_3 :
    givesF (.fcvtDWu 7 3 5) [(5, 0x12345678FFFFFFFF)] [] 3 0x41EFFFFFFFE00000 0 ∧
    givesXF (.fcvtLD 7 5 1) [] [(1, 0x43E0000000000000)] 5 0x7FFFFFFFFFFFFFFF 16 ∧
    givesXF (.fcvtLuD 7 5 1) [] [(1, 0xBFF0000000000000)] 5 0 16 ∧
    givesF (.fcvtDL 7 3 5) [(5, 0x20000000000001)] [] 3 0x4340000000000000 1 ∧
    givesF (.fcvtDLu 7 3 5) [(5, 0xFFFFFFFFFFFFFFFF)] [] 3 0x43F0000000000000 1 ∧
    givesXF (.fmvXD 5 1) [] [(1, 0x7FF0000000000001)] 5 0x7FF0000000000001 0 ∧
    givesF (.fmvDX 3 5) [(5, 0xFFFFFFFF3F800000)] [] 3 0xFFFFFFFF3F800000 0 := by decide

/-- B.2, rows T1 to T10. -/
theorem test_control :
    ran (.jal 1 2048) (given [] []) (fun t => (x t 1, t.pc.toNat)) = some (0x80000004, 0x80000800) ∧
    ran (.jalr 1 5 3) (given [(5, 0x80000100)] []) (fun t => (x t 1, t.pc.toNat)) = some (0x80000004, 0x80000102) ∧
    ran (.jalr 5 5 0) (given [(5, 0x80000200)] []) (fun t => (x t 5, t.pc.toNat)) = some (0x80000004, 0x80000200) ∧
    ran (.beq 1 2 16) (given [(1, 7), (2, 7)] []) (fun t => t.pc.toNat) = some 0x80000010 ∧
    ran (.bne 1 2 16) (given [(1, 7), (2, 7)] []) (fun t => t.pc.toNat) = some 0x80000004 ∧
    ran (.blt 1 2 16) (given [(1, 0xFFFFFFFFFFFFFFFF), (2, 1)] []) (fun t => t.pc.toNat) = some 0x80000010 ∧
    ran (.bltu 1 2 16) (given [(1, 0xFFFFFFFFFFFFFFFF), (2, 1)] []) (fun t => t.pc.toNat) = some 0x80000004 ∧
    ran (.bge 1 2 16) (given [(1, 0x8000000000000000)] []) (fun t => t.pc.toNat) = some 0x80000004 ∧
    ran (.bgeu 1 2 16) (given [(1, 0x8000000000000000)] []) (fun t => t.pc.toNat) = some 0x80000010 := by decide

/-- The start state of B.3. -/
def b3 (v : Nat) : State := put 0x80001000 0xFEDCBA9887654321 (given [(2, 0x80001000), (3, v)] [])

/-- B.3, rows M1 to M8. -/
theorem test_loads :
    ran (.lb 3 2 3) (b3 0) (fun t => x t 3) = some 0xFFFFFFFFFFFFFF87 ∧ ran (.lbu 3 2 3) (b3 0) (fun t => x t 3) = some 0x87 ∧
    ran (.lh 3 2 2) (b3 0) (fun t => x t 3) = some 0xFFFFFFFFFFFF8765 ∧ ran (.lhu 3 2 2) (b3 0) (fun t => x t 3) = some 0x8765 ∧
    ran (.lw 3 2 4) (b3 0) (fun t => x t 3) = some 0xFFFFFFFFFEDCBA98 ∧ ran (.lwu 3 2 4) (b3 0) (fun t => x t 3) = some 0xFEDCBA98 ∧
    ran (.ld 3 2 0) (b3 0) (fun t => x t 3) = some 0xFEDCBA9887654321 := by decide

/-- B.3, rows M10 to M13: the double word afterwards. -/
theorem test_stores :
    ran (.sb 2 3 1) (b3 0x1FF) (fun t => (t.ramValue 0x80001000 8).toNat) = some 0xFEDCBA988765FF21 ∧
    ran (.sh 2 3 6) (b3 0x1234ABCD) (fun t => (t.ramValue 0x80001000 8).toNat) = some 0xABCDBA9887654321 ∧
    ran (.sw 2 3 0) (b3 0xFFFFFFFF80000000) (fun t => (t.ramValue 0x80001000 8).toNat) = some 0xFEDCBA9880000000 ∧
    ran (.sd 2 3 0) (b3 0x0102030405060708) (fun t => (t.byteAt 0x80001000).toNat) = some 8 := by decide

/-- B.3, rows M14 to M19: cause, trap value, epc, and nothing retired. -/
theorem test_access_traps :
    ran (.lh 3 2 1) (b3 0) trapped = some (4, 0x80001001, 0x80000000, 0) ∧
    ran (.ld 3 2 4) (b3 0) trapped = some (4, 0x80001004, 0x80000000, 0) ∧
    ran (.sw 2 3 2) (b3 0) trapped = some (6, 0x80001002, 0x80000000, 0) ∧
    ran (.sd 0 3 0) (b3 0) trapped = some (7, 0, 0x80000000, 0) ∧
    ran (.ld 3 5 0) (given [(5, 0xDEADBEEF00000000)] []) trapped = some (5, 0xDEADBEEF00000000, 0x80000000, 0) := by decide

/-- B.3, row M21: the store retires and ends the run; no step follows. -/
theorem test_shutdown :
    ran (.sw 5 3 0) (given [(5, 0x00100000), (3, 0x5555)] []) (fun t => (t.ended, t.csr.minstret)) = some (some .shutdown, 1) ∧
    stepped { State.reset with ended := some .shutdown } (fun _ => ()) = none := by decide

/-- The start state of B.5. -/
def b5 (m v : Nat) : State := put 0x80002000 m (given [(10, 0x80002000), (13, 0x80002004), (6, v), (7, 9)] [])

/-- B.5, with a reservation on the granule of a. -/
def b5r (m v : Nat) : State := { b5 m v with resv := some 0x80002000#64 }

/-- B.5, rows A1 to A9. -/
theorem test_lr_sc :
    ran (.lrD 0 0 5 10) (b5 5 0) (fun t => (x t 5, t.resv)) = some (5, some 0x80002000#64) ∧
    ran (.lrW 0 0 5 10) (b5 0x80000000 0) (fun t => x t 5) = some 0xFFFFFFFF80000000 ∧
    ran (.scD 0 0 6 10 7) (b5r 5 0) (fun t => (x t 6, (t.ramValue 0x80002000 8).toNat, t.resv)) = some (0, 9, none) ∧
    ran (.scD 0 0 6 10 7) (b5 5 0) (fun t => (x t 6, (t.ramValue 0x80002000 8).toNat)) = some (1, 5) ∧
    ran (.scW 0 0 6 10 7) (b5r 5 0) (fun t => x t 6) = some 0 ∧
    ran (.scD 0 0 6 10 7) { b5 5 0 with resv := some 0x80002040#64 } (fun t => x t 6) = some 1 ∧
    ran .ecall (b5r 5 0) (fun t => t.resv) = some none ∧
    ran (.lrD 0 0 5 13) (b5 5 0) trapped = some (4, 0x80002004, 0x80000000, 0) := by decide

/-- What an AMO of B.5 leaves: rd and the double word. -/
def amo (i : Instr) (m v : Nat) : Option (Nat × Nat) := ran i (b5 m v) (fun t => (x t 5, (t.ramValue 0x80002000 8).toNat))

/-- B.5, rows A10 to A27. -/
theorem test_amo :
    amo (.amoaddW 0 0 5 10 6) 0x7FFFFFFF 1 = some (0x7FFFFFFF, 0x80000000) ∧
    amo (.amoswapW 0 0 5 10 6) 0x80000000 0x1234567800000001 = some (0xFFFFFFFF80000000, 1) ∧
    amo (.amominW 0 0 5 10 6) 0xFFFFFFFF 1 = some (0xFFFFFFFFFFFFFFFF, 0xFFFFFFFF) ∧
    amo (.amominuW 0 0 5 10 6) 0xFFFFFFFF 1 = some (0xFFFFFFFFFFFFFFFF, 1) ∧
    amo (.amomaxW 0 0 5 10 6) 0xFFFFFFFF 1 = some (0xFFFFFFFFFFFFFFFF, 1) ∧
    amo (.amomaxuW 0 0 5 10 6) 0xFFFFFFFF 1 = some (0xFFFFFFFFFFFFFFFF, 0xFFFFFFFF) ∧
    amo (.amoandW 0 0 5 10 6) 0x0F 0x3C = some (0x0F, 0x0C) ∧ amo (.amoorW 0 0 5 10 6) 0x0F 0x3C = some (0x0F, 0x3F) ∧
    amo (.amoxorW 0 0 5 10 6) 0x0F 0x3C = some (0x0F, 0x33) ∧
    amo (.amomaxD 0 0 5 10 6) 0x8000000000000000 0 = some (0x8000000000000000, 0) ∧
    amo (.amomaxuD 0 0 5 10 6) 0x8000000000000000 0 = some (0x8000000000000000, 0x8000000000000000) ∧
    amo (.amominD 0 0 5 10 6) 0x8000000000000000 0 = some (0x8000000000000000, 0x8000000000000000) ∧
    amo (.amominuD 0 0 5 10 6) 0x8000000000000000 0 = some (0x8000000000000000, 0) ∧
    amo (.amoandD 0 0 5 10 6) 0xF0F0 0xFF00 = some (0xF0F0, 0xF000) ∧ amo (.amoorD 0 0 5 10 6) 0xF0F0 0xFF00 = some (0xF0F0, 0xFFF0) ∧
    amo (.amoxorD 0 0 5 10 6) 0xF0F0 0xFF00 = some (0xF0F0, 0x0FF0) ∧ amo (.amoswapD 0 0 5 10 6) 3 7 = some (3, 7) ∧
    ran (.amoaddD 0 0 6 10 6) (b5 3 7) (fun t => (x t 6, (t.ramValue 0x80002000 8).toNat)) = some (3, 10) := by decide

/-- B.6, rows S81, S82 and S94; B.7, row F43. -/
theorem test_fp_loads_stores :
    ran (.flw 3 10 0) (b5 0x7F800001 0) (fun t => t.readF 3) = some 0xFFFFFFFF7F800001#64 ∧
    ran (.fld 3 10 0) (b5 0x7FF0000000000001 0) (fun t => t.readF 3) = some 0x7FF0000000000001#64 ∧
    ran (.fsw 10 3 0) (setF 3 0x40000000 (b5 0xFFFFFFFFFFFFFFFF 0)) (fun t => (t.ramValue 0x80002000 8).toNat) =
      some 0xFFFFFFFF40000000 ∧
    ran (.fsd 10 3 4) (b5 0 0) trapped = some (6, 0x80002004, 0x80000000, 0) ∧
    ran (.faddS 7 3 1 2) (mst (fun m => { m with fs := 0 }) State.reset) trapped = some (2, 0x0020F1D3, 0x80000000, 0) := by
  decide

/-- The start state of B.8: all ones in x5. -/
def b8 : State := csrs (fun c => { c with mtvec := 0x80000100#64 }) (given [(5, 0xFFFFFFFFFFFFFFFF), (7, 0x8000000000080002)] [])

/-- What a write of x5 leaves in a CSR. -/
def wrote (c : BitVec 12) : Option Nat := ran (.csrrw 0 c 5) b8 (fun t => ((csrOf c).elim 0#64 t.readCsr).toNat)

/-- B.8, rows Y2 to Y18. -/
theorem test_csr_writes :
    ran (.csrrw 5 0x340 5) (csrs (fun c => { c with mscratch := 5#64 }) b8) (fun t => (x t 5, t.csr.mscratch)) =
      some (5, 0xFFFFFFFFFFFFFFFF#64) ∧
    ran (.csrrs 5 0x300 0) b8 (fun t => x t 5) = some 0xA00002000 ∧ ran (.csrrs 5 0x100 0) b8 (fun t => x t 5) = some 0x200002000 ∧
    wrote 0x300 = some 0x8000000A007E79AA ∧
    ran (.csrrw 0 0x300 5) (setX 5 0x1000 b8) (fun t => (t.readCsr .mstatus).toNat) = some 0xA00000000 ∧
    ran (.csrrw 0 0x100 5) b8 (fun t => (t.readCsr .mstatus).toNat) = some 0x8000000A000C6122 ∧
    wrote 0x301 = some 0x800000000014112D ∧ wrote 0x302 = some 0xB3FF ∧ wrote 0x303 = some 0x222 ∧ wrote 0x304 = some 0xAAA ∧
    ran (.csrrw 0 0x344 5) { b8 with lines := b8.drivenLines } (fun t => (t.readCsr .mip).toNat) = some 0x2A2 ∧
    ran (.csrrw 0 0x104 5) b8 (fun t => (t.readCsr .sie, t.csr.mie)) = some (0#64, 0#64) ∧
    wrote 0x341 = some 0xFFFFFFFFFFFFFFFE ∧
    ran (.csrrw 0 0x305 5) (setX 5 0x80000002 b8) (fun t => t.csr.mtvec.toNat) = some 0x80000100 ∧
    ran (.csrrw 0 0x180 5) (setX 5 0x9000000000000000 b8) (fun t => t.csr.satp) = some 0#64 ∧
    ran (.csrrw 0 0x180 7) b8 (fun t => t.csr.satp.toNat) = some 0x8000000000080002 ∧
    ran (.csrrwi 0 3 0x1F) b8 (fun t => (t.csr.frm, t.csr.fflags, t.csr.mstatus.fs)) = some (0#3, 0x1F#5, 3#2) := by decide

/-- B.8, rows Y20 to Y33: which accesses are illegal; the trap value is the instruction. -/
theorem test_csr_access :
    ran (.csrrs 5 1 0) (mst (fun m => { m with fs := 0 }) b8) trapped = some (2, 0x001022F3, 0x80000000, 0) ∧
    ran (.csrrs 10 0x7C0 0) b8 trapped = some (2, 0x7C002573, 0x80000000, 0) ∧
    ran (.csrrw 0 0xF14 0) b8 trapped = some (2, 0xF1401073, 0x80000000, 0) ∧
    ran (.csrrsi 5 0xC00 0) b8 (fun t => x t 5) = some 0 ∧
    ran (.csrrsi 5 0xC00 1) b8 (fun t => t.csr.mcause) = some 2#64 ∧ ran (.csrrs 5 0xB01 0) b8 (fun t => t.csr.mcause) = some 2#64 ∧
    ran (.csrrs 5 0x300 0) (inMode .U b8) (fun t => t.csr.mcause) = some 2#64 ∧
    ran (.csrrs 5 0x300 0) (inMode .S b8) (fun t => t.csr.mcause) = some 2#64 ∧
    ran (.csrrs 5 0x180 0) (inMode .S (mst (fun m => { m with tvm := true }) b8)) (fun t => t.csr.mcause) = some 2#64 ∧
    ran (.csrrs 5 0x180 0) (inMode .S b8) (fun t => x t 5) = some 0 ∧
    ran (.csrrs 5 0xC00 0) (inMode .U (csrs (fun c => { c with mcounteren := 1 }) b8)) (fun t => t.csr.mcause) = some 2#64 ∧
    ran (.csrrs 5 0xC00 0) (inMode .S (csrs (fun c => { c with mcounteren := 1 }) b8)) (fun t => x t 5) = some 0 ∧
    ran (.csrrw 0 0xB02 7) (csrs (fun c => { c with minstret := 7 }) (setX 7 100 b8)) (fun t => t.csr.minstret) = some 100#64 ∧
    ran (.csrrc 6 0x304 7) (csrs (fun c => { c with mie := 0xAAA }) (setX 7 0x2A b8)) (fun t => (x t 6, t.csr.mie)) =
      some (0xAAA, 0xA80#64) ∧
    ran (.csrrci 6 0x304 8) (csrs (fun c => { c with mie := 0xAAA }) b8) (fun t => t.csr.mie) = some 0xAA2#64 := by decide

/-- B.8, rows Y35 to Y42. -/
theorem test_returns :
    ran .mret (csrs (fun c => { c with mepc := 0x80001000 }) (mst (fun m => { m with mpie := true }) b8))
      (fun t => (t.priv, t.csr.mstatus.mie, t.csr.mstatus.mpie, t.pc.toNat)) = some (.U, true, true, 0x80001000) ∧
    ran .mret (mst (fun m => { m with mpp := .S, mprv := true }) b8)
      (fun t => (t.priv, t.csr.mstatus.mprv, t.csr.mstatus.mie, t.csr.mstatus.mpp)) = some (.S, false, false, .U) ∧
    ran .mret (mst (fun m => { m with mpp := .M, mprv := true }) b8) (fun t => (t.priv, t.csr.mstatus.mprv)) = some (.M, true) ∧
    ran .mret (inMode .S b8) (fun t => t.csr.mcause) = some 2#64 ∧
    ran .sret (inMode .S (csrs (fun c => { c with sepc := 0x1000 }) (mst (fun m => { m with spie := true }) b8)))
      (fun t => (t.priv, t.csr.mstatus.sie, t.csr.mstatus.spie, t.pc.toNat)) = some (.U, true, true, 0x1000) ∧
    ran .sret (inMode .S (mst (fun m => { m with tsr := true }) b8)) (fun t => t.csr.mcause) = some 2#64 ∧
    ran .sret (inMode .U b8) (fun t => t.csr.mcause) = some 2#64 ∧
    ran .sret (mst (fun m => { m with spp := true }) b8) (fun t => t.priv) = some .S := by decide

/-- B.8, rows Y43 to Y54. -/
theorem test_system :
    ran .wfi (inMode .U b8) (fun t => t.csr.mcause) = some 2#64 ∧
    ran .wfi (inMode .S (mst (fun m => { m with tw := true }) b8)) (fun t => t.csr.mcause) = some 2#64 ∧
    ran .wfi b8 (fun t => (t.pc.toNat, t.waiting)) = some (0x80000004, true) ∧
    ran (.sfenceVma 0 0) (inMode .U b8) (fun t => t.csr.mcause) = some 2#64 ∧
    ran (.sfenceVma 0 0) (inMode .S (mst (fun m => { m with tvm := true }) b8)) (fun t => t.csr.mcause) = some 2#64 ∧
    ran (.sfenceVma 0 0) (inMode .S b8) (fun t => t.pc.toNat) = some 0x80000004 ∧
    ran .ecall b8 trapped = some (11, 0, 0x80000000, 0) ∧ ran .ecall (inMode .S b8) (fun t => t.csr.mcause) = some 9#64 ∧
    ran .ebreak b8 trapped = some (3, 0x80000000, 0x80000000, 0) ∧
    ran .cEbreak { b8 with pc := 0x80000012#64 } trapped = some (3, 0x80000012, 0x80000012, 0) ∧
    ran (.fence 0 3 3 0 0) b8 (fun t => t.pc.toNat) = some 0x80000004 ∧
    ran (.fence 15 0 0 0 0) b8 (fun t => t.pc.toNat) = some 0x80000004 ∧
    ran (.fenceI 0 0 0) { b8 with fetchLog := [⟨0, [none]⟩] } (fun t => t.fetchLog) = some [] := by decide

/-- Compressed instructions move pc by 2 (R740). -/
theorem test_compressed :
    ran (.cAddi 10 (BitVec.ofInt 6 (-1))) (given [(10, 0)] []) (fun t => (x t 10, t.pc.toNat)) = some (0xFFFFFFFFFFFFFFFF, 0x80000002) ∧
    ran (.cLui 10 0x3F) (given [] []) (fun t => x t 10) = some 0xFFFFFFFFFFFFF000 ∧
    ran (.cSub 0 1) (given [(8, 5), (9, 7)] []) (fun t => x t 8) = some 0xFFFFFFFFFFFFFFFE ∧
    ran (.cJalr 5) (given [(5, 0x80000201)] []) (fun t => (x t 1, t.pc.toNat)) = some (0x80000002, 0x80000200) ∧
    ran (.cBeqz 0 (BitVec.ofInt 9 (-4))) (given [] []) (fun t => t.pc.toNat) = some 0x7FFFFFFC ∧
    ran (.cLwsp 1 4) (b3 0) (fun t => (x t 1, t.pc.toNat)) = some (0xFFFFFFFFFEDCBA98, 0x80000002) ∧
    ran (.cFld 0 0 0) (mst (fun m => { m with fs := 0 }) State.reset) trapped = some (2, 0x2000, 0x80000000, 0) := by decide

/-- The page tables of B.11, in S-mode under Sv39, with x6 as the address. -/
def b11 (l0 va : Nat) : State :=
  csrs (fun c => { c with satp := 0x8000000000080002#64, stvec := 0x100#64 }) (inMode .S
    (put 0x80002000 0x20000C01 (put 0x80002010 0x200000CF (put 0x80002800 0 (put 0x80003010 0x20001001 (put 0x80003018 0x200800CF
      (put 0x80004008 l0 (put 0x80010230 0x1122334455667788 (given [(6, va)] [])))))))))

/-- The physical address of a translation, if there is one, or the exception's code. -/
def translated (acc : Access) (s : State) : Nat × Bool :=
  match s.translate acc (s.readX 6#5) with
  | .ok pa _ => (pa.toNat, true)
  | .raise e _ => (e.code, false)

/-- B.11, rows V1 to V19. -/
theorem test_translation :
    translated .load (b11 0x20004007 0x00401234) = (0x80010234, true) ∧
    translated .load (b11 0x20004007 0x00678ABC) = (0x80278ABC, true) ∧
    translated .fetch (b11 0x20004007 0x80000000) = (0x80000000, true) ∧
    translated .load (b11 0x20004007 0x0000008000000000) = (13, false) ∧
    translated .load (b11 0x20004007 0xFFFFFFC000000000) = (13, false) ∧
    translated .store (b11 0x20004007 0xFFFFFFC000000000) = (15, false) ∧
    translated .load (b11 0x20004057 0x00401234) = (13, false) ∧
    translated .load (mst (fun m => { m with sum := true }) (b11 0x20004057 0x00401234)) = (0x80010234, true) ∧
    translated .fetch (mst (fun m => { m with sum := true }) (b11 0x2000405F 0x00401234)) = (12, false) ∧
    translated .load (inMode .U (b11 0x20004047 0x00401234)) = (13, false) ∧
    translated .load (inMode .U (b11 0x20004057 0x00401234)) = (0x80010234, true) ∧
    translated .store (b11 0x20004043 0x00401234) = (15, false) ∧ translated .load (b11 0x20004045 0x00401234) = (13, false) ∧
    translated .load (b11 0x20004049 0x00401234) = (13, false) ∧
    translated .load (mst (fun m => { m with mxr := true }) (b11 0x20004049 0x00401234)) = (0x80010234, true) ∧
    translated .load (b11 0x0040000020004047 0x00401234) = (13, false) ∧
    translated .load (b11 0x20001001 0x00401234) = (13, false) := by decide +kernel

/-- B.11, rows V1, V2 at an aligned address, and V20 to V24: the PTE afterwards, and the traps. -/
theorem test_pte_updates :
    ran (.ld 5 6 0) (b11 0x20004007 0x00401230) (fun t => (x t 5, (t.ramValue 0x80004008 8).toNat, t.dtlb.map fun e => (e.vpn.toNat, e.d))) =
      some (0x1122334455667788, 0x20004047, [(0x401, false)]) ∧
    ran (.sd 6 5 0) (b11 0x20004007 0x00401230) (fun t => ((t.ramValue 0x80004008 8).toNat, t.dtlb.map fun e => (e.ppn.toNat, e.d))) =
      some (0x200040C7, [(0x80010, true)]) ∧
    ran (.amoaddD 0 0 5 6 5) (b11 0 0x00401230) (fun t => t.csr.mcause) = some 15#64 ∧
    ran (.lrD 0 0 5 6) (b11 0 0x00401230) (fun t => t.csr.mcause) = some 13#64 ∧
    ran (.ld 5 6 0) (b11 0 0x00401231) (fun t => t.csr.mcause) = some 4#64 ∧
    ran (.ld 5 6 0) (inMode .M (b11 0 0x00401230)) trapped = some (5, 0x00401230, 0x80000000, 0) ∧
    ran (.ld 5 6 0) (csrs (fun c => { c with satp := 0x8000000000000000#64 }) (b11 0 0x00401230)) (fun t => t.csr.mcause) =
      some 5#64 := by decide +kernel

/-- R901: byte i of a flat image is at base + i; an image that does not fit in RAM is refused. -/
theorem test_flat_image :
    ((State.boot? Config.default (.flat [0x93#8, 0x00#8])).map fun s => (s.byteAt 0x80000000, s.byteAt 0x80000001, s.pc)) =
      some (0x93#8, 0x00#8, 0x80000000#64) ∧
    State.boot? { Config.default with loadBase := 0x87FFFFFF#64 } (.flat [0x93#8, 0x00#8]) = none := by decide

/-- R901: the segments of an ELF are at their addresses and pc at its entry; one whose memory size leaves RAM is refused. -/
theorem test_elf_image :
    ((State.boot? Config.default (.elf 0x80000100#64 [⟨0x80000100, [0x73#8], 16⟩, ⟨0x80000000, [0x13#8], 1⟩])).map fun s =>
      (s.byteAt 0x80000100, s.byteAt 0x80000000, s.pc)) = some (0x73#8, 0x13#8, 0x80000100#64) ∧
    State.boot? Config.default (.elf 0x80000100#64 [⟨0x87FFFFF8, [0x73#8], 16⟩]) = none := by decide

/-- R201, R501: a byte store to a PLIC that takes bytes writes the low byte alone. -/
theorem test_plic_narrow_store :
    (State.reset.deviceWrite .plic 0x201000 1 0x12345678#64).plic.threshold = 0x78#32 := by decide

/-- R54, R251, R265: a fault of an earlier walk for a fetch is gone after a satp write, an SFENCE.VMA or a FENCE.I, not after a
store. -/
theorem test_stale_faults :
    let o : Overwrite := ⟨0, [none]⟩
    let s (f : List Overwrite) (w : List WalkEvent) : State := { State.reset with fetchLog := f, walkLog := w }
    (s [o] [.store o]).stillInFlight 1 = true ∧ (s [o] [.store o, .satp 0#64]).stillInFlight 2 = false ∧
    (s [o] [.fence (some 0#64) none, .store o]).stillInFlight 1 = false ∧ (s [] [.store o]).stillInFlight 1 = false ∧
    (s [o] [.store o, .store o]).stillInFlight 1 = true ∧ (s [o] [.store o, .store o]).stillInFlight 2 = false := by decide

/-- R242, R246, R960: a fetch ahead in S-mode fills an entry with U = 0; U = 1 is then stored in the PTE, and FENCE.I leaves the
TLB alone. A fetch in U-mode that hits that entry page-faults, one in S-mode goes on, and a walk of the new PTE permits U-mode. -/
theorem test_stale_entry_of_another_mode :
    let s : State := { (b11 0x200040CF 0).writeRam 0x80004008 8 0x200040DF#64 with fetchLog := [] }
    let r (o : Option (Res Word)) : Option (Nat × Bool) := o.map fun r =>
      match r with
      | .ok pa _ => (pa.toNat, true)
      | .raise e _ => (e.code, false)
    r (s.earlierWalk 1 .U 0x00401234#64) = some (12, false) ∧ r (s.earlierWalk 1 .S 0x00401234#64) = some (0x80010234, true) ∧
    r (some (s.walk .fetch .U 0x00401234#64)) = some (0x80010234, true) := by decide +kernel

/-- R183: a fetch that does not see the newest store sees neither of its bytes, and sees both bytes of the store before it. -/
theorem test_stores_are_indivisible :
    let s := (State.reset.writeRam 0x80000000 2 0x1111#64).writeRam 0x80000000 2 0x2222#64
    s.fetchLog.length = 2 ∧ s.parcelBefore 0 0x80000000 = 0x2222#16 ∧ s.parcelBefore 1 0x80000000 = 0x1111#16 := by decide

/-! ## Steps: traps, interrupts, fetching (B.12) -/

/-- A state at a boundary, with latched lines. -/
def b12 (p : Priv) (l : Lines) (g : Csrs → Csrs) : State :=
  { inMode p (csrs g State.reset) with atBoundary := true, lines := l }

/-- mstatus with MIE and SIE given. -/
def enables (mie sie : Bool) : Mstatus := { Mstatus.reset with mie := mie, sie := sie }

/-- B.12, rows X1, X7 to X15: the interrupt taken at a boundary. -/
theorem test_interrupt_choice :
    (b12 .M ⟨true, false, false⟩ fun c => { c with mstatus := enables true false, mie := 0x80 }).interruptNow = some .mti ∧
    (b12 .M ⟨true, true, false⟩ fun c => { c with mstatus := enables true false, mie := 0x88 }).interruptNow = some .msi ∧
    (b12 .M ⟨false, true, false⟩ fun c => { c with mstatus := enables true false, mie := 0xA08, seip := true }).interruptNow =
      some .msi ∧
    (b12 .S ⟨true, false, false⟩ fun c => { c with mie := 0x80 }).interruptNow = some .mti ∧
    (b12 .M ⟨false, false, false⟩ fun c => { c with mstatus := enables true false, mideleg := 0x20, mie := 0x20, stip := true }).interruptNow =
      none ∧
    (b12 .S ⟨false, false, false⟩ fun c => { c with mideleg := 0x20, mie := 0x20, stip := true }).interruptNow = none ∧
    (b12 .S ⟨false, false, false⟩ fun c => { c with mstatus := enables false true, mideleg := 0x20, mie := 0x20, stip := true }).interruptNow =
      some .sti ∧
    (b12 .U ⟨false, false, false⟩ fun c => { c with mideleg := 0x20, mie := 0x20, stip := true }).interruptNow = some .sti ∧
    (b12 .S ⟨true, false, false⟩ fun c =>
      { c with mstatus := enables false true, mideleg := 0x20, mie := 0xA0, stip := true }).interruptNow = some .mti ∧
    (b12 .M ⟨true, false, false⟩ fun c => { c with mie := 0x80 }).interruptNow = none := by decide

/-- B.12, rows X1 and X12: entry for an interrupt, vectored. -/
theorem test_interrupt_entry :
    stepped (b12 .M ⟨true, false, false⟩ fun c => { c with mstatus := enables true false, mie := 0x80, mtvec := 0x80000101 })
      (fun t => [t.pc.toNat, t.csr.mcause.toNat, t.csr.mepc.toNat, t.csr.mstatus.toWord.toNat]) =
      some [0x8000011C, 0x8000000000000007, 0x80000000, 0xA00003880] ∧
    stepped (b12 .S ⟨false, false, false⟩ fun c =>
        { c with mstatus := enables false true, mideleg := 0x20, mie := 0x20, stip := true, stvec := 0x80000201 })
      (fun t => [t.pc.toNat, t.csr.scause.toNat, t.priv.code.toNat, t.csr.mstatus.toWord.toNat]) =
      some [0x80000214, 0x8000000000000005, 1, 0xA00002120] := by decide

/-- B.12, rows X3 to X5 and X20: entry for an exception. -/
theorem test_exception_entry :
    ran .ecall (inMode .U { csrs (fun c => { c with medeleg := 0x100, stvec := 0x80000200, mstatus := enables false true }) State.reset
        with pc := 0x1000 })
      (fun t => [t.csr.scause.toNat, t.csr.sepc.toNat, t.pc.toNat, t.csr.mstatus.toWord.toNat]) =
      some [8, 0x1000, 0x80000200, 0xA00002020] ∧
    ran .ecall (inMode .S (csrs (fun c => { c with medeleg := 0xB3FF }) State.reset)) (fun t => (t.csr.scause.toNat, t.csr.mstatus.spp)) =
      some (9, true) ∧
    ran (.csrrw 0 0xF14 0) (csrs (fun c => { c with medeleg := 0xB3FF }) State.reset) (fun t => (t.csr.mcause.toNat, t.priv)) =
      some (2, .M) ∧
    stepped { State.reset with pc := 0#64 } trapped = some (1, 0, 0, 0) ∧
    stepped (State.reset.withFetchWord 32 0xFFFFFFFF) trapped = some (2, 0xFFFFFFFF, 0x80000000, 0) := by decide

/-- B.12, row X18: the second parcel of an instruction faults with its own address. -/
theorem test_second_parcel_fault :
    stepped { csrs (fun c => { c with satp := 0x8000000000080002#64 })
        (put 0x80004010 0 (put 0x80010FF8 0x0013000000000000 (b11 0x2000404F 0))) with pc := 0x00401FFE }
      trapped = some (12, 0x00402000, 0x00401FFE, 0) := by decide +kernel

/-- The instruction placed by withFetchWord is the one the next step runs; its bits are little-endian parcels (R161). -/
theorem test_withFetchWord :
    stepped (State.reset.withFetchWord 32 0x00A00093) (fun t => (x t 1, t.pc.toNat, t.csr.minstret.toNat)) = some (10, 0x80000004, 1) ∧
    stepped (State.reset.withFetchWord 16 0x4529) (fun t => (x t 10, t.pc.toNat)) = some (10, 0x80000002) ∧
    decodeTableWord 32 0x00A00093 = some (.addi 1 0 10) ∧ decodeTableWord 16 0x4529 = some (.cLi 10 10) := by decide

/-- The CLINT and the PLIC as loads and stores see them (R850, R851, log 14). -/
theorem test_devices :
    ran (.sw 5 6 0) (given [(5, 0x02000000), (6, 1)] []) (fun t => (t.clint.msip, t.lines.msip)) = some (true, false) ∧
    ran (.sd 5 6 0) (given [(5, 0x02004000), (6, 77)] []) (fun t => t.clint.mtimecmp) = some 77#64 ∧
    ran (.sh 5 6 0) (given [(5, 0x02004000), (6, 77)] []) (fun t => t.csr.mcause) = some 7#64 ∧
    ran (.lw 7 5 0) { given [(5, 0x0C201004)] [] with
        plic := ⟨(Vector.replicate 32 0#32).set 10 5#32, 0x400#32, 0x400#32, 0#32, 4#32⟩ }
      (fun t => (x t 7, t.plic.pending, t.plic.inService)) = some (10, 0#32, 0x400#32) ∧
    ran (.sw 5 6 0) (given [(5, 0x0C002080), (6, 0x403)] []) (fun t => t.plic.enable) = some 0x402#32 := by decide

/-! ## Witnesses: for every obligation with hypotheses, states and operands that meet them -/

/-- A translation that gives an address gives it in some state. -/
theorem ok_of {r : Res Word} {pa : Word} (h : (match r with | .ok p _ => p == pa | .raise _ _ => false) = true) :
    ∃ t, r = .ok pa t := by
  cases r with
  | ok p t => exact ⟨t, by rw [eq_of_beq h]⟩
  | raise e v => cases h

/-- A walk that finds something finds it in some state. -/
theorem walk_of {r : State.Walk × State} {w : State.Walk} (h : r.1 = w) : ∃ t, r = (w, t) := ⟨r.2, by rw [← h]⟩

/-- The reset state with a word at pc. -/
def placed (w : Nat) : State := State.reset.withFetchWord 32 w

theorem test_witness_DecodeReadsBackEveryEncoding :
    (Instr.beq 1 2 (BitVec.ofInt 13 (-4096))).wellFormed = true ∧ (Instr.cAddi16sp 0x1F0).wellFormed = true := by decide

theorem test_witness_DecodedBytesAreTheEncoding :
    decode [0xB3#8, 0x80#8, 0x20#8, 0x00#8, 0xFF#8] = .ok (.add 1 1 2, [0xFF#8]) ∧
    decode [0x29#8, 0x45#8] = .ok (.cLi 10 10, []) := ⟨rfl, rfl⟩

theorem test_witness_IllegalBitsTrap :
    (0x0000000B#32).extractLsb' 0 7 = 0b0001011#7 ∧ (0x0000002B#32).extractLsb' 0 7 = 0b0101011#7 ∧
    (0x0000005B#32).extractLsb' 0 7 = 0b1011011#7 ∧ (0x0000007B#32).extractLsb' 0 7 = 0b1111011#7 ∧
    (0xFFFFFFFF#32).extractLsb' 0 5 = 0b11111#5 ∧ decodeCode (.half 4#16) = .error (.reservedParcel 4#16) :=
  ⟨rfl, rfl, rfl, rfl, rfl, rfl⟩

theorem test_witness_StepRunsTheDecodedInstruction :
    (placed 0x00A00093).ended = none ∧ (placed 0x00A00093).stillWaiting = false ∧ (placed 0x00A00093).interruptNow = none ∧
    State.fetchInstr { (placed 0x00A00093).tick with waiting := false } =
      (.ok (.word 0x00A00093#32), { (placed 0x00A00093).tick with waiting := false }) ∧
    decodeCode (.word 0x00A00093#32) = .ok (.addi 1 0 10) := ⟨rfl, rfl, rfl, rfl, rfl⟩

theorem test_witness_StepRunsTheBytesAtPc :
    (placed 0x00A00093).ended = none ∧ (placed 0x00A00093).stillWaiting = false ∧ (placed 0x00A00093).interruptNow = none ∧
    satpMode (placed 0x00A00093).csr.satp = 0#4 ∧ (placed 0x00A00093).tick.fetchLog = [] ∧ (Instr.addi 1 0 10).wellFormed = true ∧
    (placed 0x00A00093).cfg.ramBase + (placed 0x00A00093).cfg.ramSize ≤ 2 ^ 64 ∧
    State.inRam (placed 0x00A00093).cfg (placed 0x00A00093).pc.toNat (encodeBytes (.addi 1 0 10)).length = true ∧
    (∀ (k : Nat) (h : k < (encodeBytes (.addi 1 0 10)).length),
      (placed 0x00A00093).tick.byteAt ((placed 0x00A00093).pc.toNat + k) = (encodeBytes (.addi 1 0 10))[k]) := by decide

theorem test_witness_StepWithoutAnInstruction :
    { State.reset with ended := some .shutdown }.ended = some .shutdown ∧
    (State.reset.ended = none ∧ { State.reset with waiting := true }.waiting = true ∧
      { State.reset with waiting := true }.mip &&& State.reset.csr.mie = 0#64) ∧
    ((b12 .S ⟨true, false, false⟩ fun c => { c with mie := 0x80 }).ended = none ∧
      (b12 .S ⟨true, false, false⟩ fun c => { c with mie := 0x80 }).stillWaiting = false ∧
      (b12 .S ⟨true, false, false⟩ fun c => { c with mie := 0x80 }).interruptNow = some .mti) ∧
    State.fetchInstr { { State.reset with pc := 0#64 }.tick with waiting := false } =
      (.error (.instructionAccessFault, 0#64), { { State.reset with pc := 0#64 }.tick with waiting := false }) :=
  ⟨rfl, ⟨rfl, rfl, rfl⟩, ⟨rfl, rfl, rfl⟩, rfl⟩

theorem test_witness_EveryStepKeepsTheInvariant : (placed 0x00A00093).Inv ∧ ∃ t, step (placed 0x00A00093) = .next t :=
  ⟨⟨by decide, by decide, by decide, by decide, by decide, by decide, by decide, by decide, by decide, by decide, by decide,
    by decide, by decide, fun _ h => by cases h⟩, _, rfl⟩

theorem test_witness_ResetStatesMeetTheInvariant : Config.default.valid = true := by decide

theorem test_witness_ResetValuesOfTheCore :
    (1#5 : Reg) ≠ 0#5 ∧ CsrName.mie ≠ .mstatus ∧ CsrName.mie ≠ .sstatus ∧ CsrName.mie ≠ .misa := by decide

theorem test_witness_RegisterFilesAndRetirement : FFlags.nx ≠ 0#5 := by decide

theorem test_witness_ControlTransfersGoToTheirTargets :
    (7#64 : Word).toInt = (7#64 : Word).toInt ∧ (7#64 : Word).toInt ≠ (8#64 : Word).toInt ∧
    (0x8000000000000000#64 : Word).toInt < (0x7FFFFFFFFFFFFFFF#64 : Word).toInt ∧ ¬(0#64 : Word).toInt < (0#64 : Word).toInt ∧
    (0#64 : Word).toNat < (0xFFFFFFFFFFFFFFFF#64 : Word).toNat ∧ ¬(1#64 : Word).toNat < (1#64 : Word).toNat := by decide

theorem test_witness_CompressedActsAsItsExpansion :
    expansion (.cLwsp 1 4) = some (.lw 1 2 4) ∧ instrClass (.cLwsp 1 4) ≠ .branch ∧ instrClass (.cLwsp 1 4) ≠ .jump ∧
    ran (.lw 1 2 4) (b3 0) (fun t => t.atBoundary) = some true ∧
    expansion (.cFsd 0 0 0) = some (.fsd 8 8 0) ∧ ran (.fsd 8 8 0) (given [(8, 0x80001000)] []) (fun t => t.atBoundary) = some true := by
  decide

theorem test_witness_LoadsAndStoresComplete :
    (b3 0).csr.mstatus.fs ≠ 0#2 ∧
    (b3 0).memRead 0x80001001#64 1 = .ok (0x43#64, 0x80001001#64) (b3 0) ∧
    (b3 0).memRead 0x80001002#64 2 = .ok (0x8765#64, 0x80001002#64) (b3 0) ∧
    (b3 0).memRead 0x80001004#64 4 = .ok (0xFEDCBA98#64, 0x80001004#64) (b3 0) ∧
    (b3 0).memRead 0x80001000#64 8 = .ok (0xFEDCBA9887654321#64, 0x80001000#64) (b3 0) ∧
    (∃ t, (b3 0).memWrite 0x80001001#64 1 5#64 = .ok () t) ∧ (∃ t, (b3 0).memWrite 0x80001002#64 2 5#64 = .ok () t) ∧
    (∃ t, (b3 0).memWrite 0x80001004#64 4 5#64 = .ok () t) ∧ (∃ t, (b3 0).memWrite 0x80001000#64 8 5#64 = .ok () t) :=
  ⟨by decide, rfl, rfl, rfl, rfl, ⟨_, rfl⟩, ⟨_, rfl⟩, ⟨_, rfl⟩, ⟨_, rfl⟩⟩

theorem test_witness_AlignedRamAccesses :
    8 ∈ [1, 2, 4, 8] ∧ satpMode State.reset.csr.satp = 0#4 ∧ State.reset.effPriv .load = .M ∧
    (0x87FFFFF8#64).toNat % 8 = 0 ∧ State.inRam State.reset.cfg (0x87FFFFF8#64).toNat 8 = true ∧
    State.inRam State.reset.cfg (0x80000000#64).toNat 1 = true ∧ (∀ k < 8, k < 8 ∧ (0x80000000 : Nat) + 8 ≤ 0x80000008 + k) := by decide

theorem test_witness_StoreThenLoadRoundTrip :
    satpMode (b3 0).csr.satp = 0#4 ∧ ((b3 0).effPriv .load = .M ∧ (b3 0).effPriv .store = .M) ∧
    0x80001000 % 4 = 0 ∧ 0x80001000 % 8 = 0 ∧ 0x80001000 % 2 = 0 ∧ State.inRam (b3 0).cfg 0x80001000 8 = true ∧
    State.inRam (b3 0).cfg 0x80001000 4 = true ∧ State.inRam (b3 0).cfg 0x80001000 2 = true ∧ State.inRam (b3 0).cfg 0x80001000 1 = true ∧
    (∃ t, exec (.sw 2 3 0) (b3 0) = .next t) ∧ (∃ t, exec (.sd 2 3 0) (b3 0) = .next t) ∧ (∃ t, exec (.sh 2 3 0) (b3 0) = .next t) ∧
    (∃ t, exec (.sb 2 3 0) (b3 0) = .next t) :=
  ⟨rfl, ⟨rfl, rfl⟩, rfl, rfl, rfl, rfl, rfl, rfl, rfl, ⟨_, rfl⟩, ⟨_, rfl⟩, ⟨_, rfl⟩, ⟨_, rfl⟩⟩

theorem test_witness_DataAccessExceptions :
    dataAccess (.lh 3 2 1) (b3 0) = some (.load, 0x80001001#64, 2) ∧ (0x80001001#64).toNat % 2 ≠ 0 ∧
    (dataAccess (.ld 5 6 0) (b11 0 0x00401230) = some (.load, 0x00401230#64, 8) ∧ (0x00401230#64).toNat % 8 = 0 ∧
      (b11 0 0x00401230).translate .load 0x00401230#64 = .raise .loadPageFault 0x00401230#64) ∧
    (dataAccess (.flw 3 0 0) State.reset = some (.load, 0#64, 4) ∧ isFp (.flw 3 0 0) = true ∧ State.reset.csr.mstatus.fs ≠ 0#2 ∧
      State.reset.translate .load 0#64 = .ok 0#64 State.reset ∧ ownerOf State.reset.cfg (0#64).toNat = none) ∧
    (ownerOf State.reset.cfg 0x87FFFFFC = some .ram ∧ State.inRam State.reset.cfg 0x87FFFFFC 8 = false) ∧
    (ownerOf State.reset.cfg 0x02004000 = some (.device .clint State.reset.cfg.clint) ∧
      accepts State.reset.cfg.clint 0x02004000 2 = false) ∧
    (instrClass (.scD 0 0 6 0 7) = .sc ∧ { State.reset with resv := some 0#64 }.resv = some (State.reset.granule 0#64)) :=
  ⟨rfl, by decide, ⟨rfl, rfl, by decide +kernel⟩, ⟨rfl, rfl, by decide, rfl, rfl⟩, ⟨rfl, rfl⟩, ⟨rfl, rfl⟩, ⟨rfl, rfl⟩⟩

theorem test_witness_MemoryFrame :
    (ran (.sd 2 3 0) (b3 0) (fun t => t.atBoundary) = some true ∧ dataAccess (.sd 2 3 0) (b3 0) = some (.store, 0x80001000#64, 8) ∧
      ∃ u, (b3 0).translate .store 0x80001000#64 = .ok 0x80001000#64 u) ∧
    ran (.addi 1 0 10) (b3 0) (fun t => t.atBoundary) = some true ∧ dataAccess (.addi 1 0 10) (b3 0) = none :=
  ⟨⟨rfl, rfl, _, rfl⟩, rfl, rfl⟩

theorem test_witness_RegisterFrame :
    ran (.faddS 7 3 1 2) State.reset (fun t => t.atBoundary) = some true ∧ destX (.faddS 7 3 1 2) ≠ some 1#5 ∧
    destF (.faddS 7 3 1 2) ≠ some 4#5 ∧ instrClass (.faddS 7 3 1 2) ≠ .lr ∧ instrClass (.faddS 7 3 1 2) ≠ .sc ∧
    instrClass (.faddS 7 3 1 2) ≠ .system ∧ ran .wfi State.reset (fun t => t.atBoundary) = some true ∧
    ran (.sfenceVma 1 2) State.reset (fun t => t.atBoundary) = some true ∧ isFp (.addi 1 0 10) = false ∧
    ran (.csrrw 1 0x340 2) State.reset (fun t => t.atBoundary) = some true := by decide

theorem test_witness_DeviceAccessesAndTheEndOfARun :
    ownerOf State.reset.cfg (0x02004000#64).toNat = some (.device .clint State.reset.cfg.clint) ∧
    accepts State.reset.cfg.clint (0x02004000#64).toNat 8 = true ∧
    ownerOf State.reset.cfg (0x10000000#64).toNat = some (.device .uart State.reset.cfg.uart) ∧
    accepts State.reset.cfg.uart (0x10000000#64).toNat 1 = true ∧
    State.reset.ended = none ∧ (State.reset.deviceWrite .syscon 0 2 0x5555#64).ended = some .shutdown ∧
    (State.reset.deviceWrite .syscon 0 4 0x7777#64).ended = some .reboot := by decide

theorem test_witness_LoadReservedAndStoreConditional :
    (b5r 5 0).memRead ((b5r 5 0).readX 10#5) 4 = .ok (5#64, 0x80002000#64) (b5r 5 0) ∧
    (b5r 5 0).memRead ((b5r 5 0).readX 10#5) 8 = .ok (5#64, 0x80002000#64) (b5r 5 0) ∧
    (b5r 5 0).translate .store ((b5r 5 0).readX 10#5) = .ok 0x80002000#64 (b5r 5 0) ∧ (0x80002000#64).toNat % 8 = 0 ∧
    (b5r 5 0).resv = some (0x80002000#64 &&& ~~~BitVec.ofNat 64 (64 - 1)) ∧
    (b5 5 0).resv ≠ some (0x80002000#64 &&& ~~~BitVec.ofNat 64 (64 - 1)) ∧
    (∃ u, (b5r 5 0).busWrite 0x80002000#64 4 9#64 = some u) ∧ (∃ u, (b5r 5 0).busWrite 0x80002000#64 8 9#64 = some u) :=
  ⟨rfl, rfl, rfl, rfl, rfl, by decide, ⟨_, rfl⟩, ⟨_, rfl⟩⟩

theorem test_witness_AmoResults :
    ((b5 5 0).readX 10#5).toNat % 8 = 0 ∧ (b5 5 0).translate .store ((b5 5 0).readX 10#5) = .ok 0x80002000#64 (b5 5 0) ∧
    (b5 5 0).busRead 0x80002000#64 4 = some (5#64, b5 5 0) ∧ (b5 5 0).busRead 0x80002000#64 8 = some (5#64, b5 5 0) ∧
    (∃ w, (b5 5 0).busWrite 0x80002000#64 4 9#64 = some w) ∧ (∃ w, (b5 5 0).busWrite 0x80002000#64 8 9#64 = some w) :=
  ⟨rfl, rfl, rfl, rfl, ⟨_, rfl⟩, ⟨_, rfl⟩⟩

/-- For the statements on FP instructions: FS is not Off at reset, and every rounding mode can be named. -/
theorem test_witness_FpArithmeticCompletes :
    State.reset.csr.mstatus.fs ≠ 0#2 ∧ State.reset.roundingMode 0#3 = some .rne ∧ State.reset.roundingMode 4#3 = some .rmm ∧
    State.reset.roundingMode 7#3 = some .rne := by decide

theorem test_witness_FpMovesSignsAndFclass : State.reset.csr.mstatus.fs ≠ 0#2 := by decide

theorem test_witness_FpComparisonsMinimumMaximum : (setF 1 0x7F800001 State.reset).csr.mstatus.fs ≠ 0#2 := by decide

theorem test_witness_InvalidAndDivideByZero :
    ((valS 0x7F800001).isNaN = true ∧ valS 0x7F800000 = .inf false ∧ valS 0xFF800000 = .inf true ∧
      valS 0x80000000 = .fin true 0 (-149) ∧ valS 0xBF800000 = .fin true (2 ^ 23) (-23) ∧ (2 : Nat) ^ 23 ≠ 0 ∧
      (valS 0x7F800000).isNaN = false ∧ (false != ((0x80000000#32 &&& (0x7F800000#32 ^^^ 0x3F800000#32)) != 0)) ≠ (false != true)) ∧
    ((valD 0x7FF0000000000001).isNaN = true ∧ valD 0x7FF0000000000000 = .inf false ∧ valD 0xFFF0000000000000 = .inf true ∧
      valD 0x8000000000000000 = .fin true 0 (-1074) ∧ valD 0xBFF0000000000000 = .fin true (2 ^ 52) (-52) ∧ (2 : Nat) ^ 52 ≠ 0 ∧
      (valD 0x7FF0000000000000).isNaN = false ∧
      (false != ((0x8000000000000000#64 &&& (0x7FF0000000000000#64 ^^^ 0x3FF0000000000000#64)) != 0)) ≠ (false != true)) := by decide

theorem test_witness_ConversionToIntegerSaturates :
    (-2 ^ 31 : Int) ≤ 0 ∧ (0 : Int) < 2 ^ 31 - 1 ∧ valS 0x7FC00000 = .nan false ∧ valS 0xFF800000 = .inf true ∧
    valS 0x40200000 = .fin false 0xA00000 (-22) ∧ valD 0x7FF8000000000000 = .nan false ∧ valD 0xFFF0000000000000 = .inf true ∧
    valD 0x4004000000000000 = .fin false 0x14000000000000 (-51) := by decide

/-- 1 + 2^−24 lies halfway between 1 and its successor; 2^128 overflows; 2^−150 is tiny and inexact. -/
theorem test_witness_RoundingPicksTheRightNeighbour :
    2 ^ 24 + 1 ≠ 0 ∧ (roundPack .single .rne false (2 ^ 24 + 1) (-24)).2 &&& FFlags.of = 0#5 ∧
    (roundPack .double .rdn true 1 (-1080)).2 &&& FFlags.of = 0#5 ∧ FpFmt.single.unpack 0x3F800000 = .fin false (2 ^ 23) (-23) ∧
    FpFmt.single.unpack 0x3F800001 = .fin false (2 ^ 23 + 1) (-23) ∧
    (roundPack .single .rdn false 1 128).2 &&& FFlags.of ≠ 0#5 ∧ (roundPack .single .rup false 1 (-150)).2 = 0b00011#5 := by decide

theorem test_witness_ArithmeticRoundsTheExactResultOnce :
    valS 0x3F800000 = .fin false (2 ^ 23) (-23) ∧ valS 0xBF800000 = .fin true (2 ^ 23) (-23) ∧ false ≠ true ∧
    valD 0x3FF0000000000000 = .fin false (2 ^ 52) (-52) ∧ valD 0xBFF0000000000000 = .fin true (2 ^ 52) (-52) ∧ (1 : Int) ≠ 0 ∧
    finValue false (2 ^ 23) (-23) + finValue false (2 ^ 23) (-23) ≠ 0 ∧ finValue false (2 ^ 23) (-23) + finValue true (2 ^ 23) (-23) = 0 ∧
    finValue true 0 (-149) * finValue false (2 ^ 23) (-23) = 0 ∧ finValue true (2 ^ 23) (-23) - finValue true (2 ^ 23) (-23) = 0 := by
  refine ⟨rfl, rfl, by decide, rfl, rfl, by decide, ?_, ?_, ?_, ?_⟩ <;> norm_num [finValue]

/-- For the conversions between the formats: every kind of value, of both. -/
theorem test_witness_ArithmeticRoundsTheExactResultOnce_2 :
    (valD 0x7FF0000000000001 = .nan true ∧ valD 0xFFF0000000000000 = .inf true ∧ valD 0x8000000000000000 = .fin true 0 (-1074) ∧
      valD 0x3FB999999999999A = .fin false 0x1999999999999A (-56) ∧ 0x1999999999999A ≠ 0) ∧
    valS 0x7FC00000 = .nan false ∧ valS 0x7F800000 = .inf false ∧ valS 0x80000001 = .fin true 1 (-149) := by decide

theorem test_witness_QuotientAndRootAreCutBelowRounding :
    valS 0x00000001 = .fin false 1 (-149) ∧ valS 0xBF800000 = .fin true (2 ^ 23) (-23) ∧ (1 : Nat) ≠ 0 ∧ (2 : Nat) ^ 23 ≠ 0 ∧
    valD 0x0000000000000001 = .fin false 1 (-1074) ∧ valD 0xBFF0000000000000 = .fin true (2 ^ 52) (-52) ∧ (2 : Nat) ^ 52 ≠ 0 := by decide

theorem test_witness_FpLegality :
    (mst (fun m => { m with fs := 0 }) State.reset).csr.mstatus.fs = 0#2 ∧ isFp (.cFld 0 0 0) = true ∧ (3#12).toNat ∈ [1, 2, 3] ∧
    Instr.csrrs 5 3 0 ∈ [Instr.csrrw 5 3 0, .csrrs 5 3 0, .csrrc 5 3 0, .csrrwi 5 3 0, .csrrsi 5 3 0, .csrrci 5 3 0] ∧
    rmOf (.faddS 5 3 1 2) = some 5#3 ∧ State.reset.csr.mstatus.fs ≠ 0#2 ∧ 5 ≤ (5#3).toNat ∧
    5 ≤ (csrs (fun c => { c with frm := 7 }) State.reset).csr.frm.toNat := by decide

/-- For the statements on privileged instructions: every mode with every trap bit. -/
theorem test_witness_CallsBreakpointsAndReturns :
    State.reset.priv = .M ∧ (inMode .S State.reset).priv = .S ∧ State.reset.csr.mstatus.tsr = false ∧
    (mst (fun m => { m with tsr := true }) State.reset).csr.mstatus.tsr = true ∧ (inMode .U State.reset).priv = .U ∧
    (inMode .U State.reset).priv ≠ .M := by decide

theorem test_witness_FencesAndWait :
    State.reset.priv = .M ∧ (inMode .S State.reset).priv = .S ∧ State.reset.csr.mstatus.tw = false ∧
    (mst (fun m => { m with tw := true, tvm := true }) State.reset).csr.mstatus.tw = true ∧ State.reset.csr.mstatus.tvm = false ∧
    (mst (fun m => { m with tw := true, tvm := true }) State.reset).csr.mstatus.tvm = true ∧ State.reset.fetchLog = [] ∧
    satpMode State.reset.csr.satp = 0#4 ∧ State.inRam State.reset.cfg (0x87FFFFFE#64).toNat 2 = true := by decide

/-- An entry of the TLB that both an address and an ASID select. -/
def entry : TlbEntry := ⟨0x401#27, 0#16, 0x80010#44, true, true, false, false, false, true, true, .kib4⟩

theorem test_witness_SfenceRemovesWhatItNames :
    (some 0x401234#64 : Option Word) = some 0x401234#64 ∧ (some 0#16 : Option (BitVec 16)) = some 0#16 ∧
    (0x401234#64).toInt < 2 ^ 38 ∧ -2 ^ 38 ≤ (0x401234#64).toInt ∧
    ((0x401234#64).toNat / 2 ^ 12 % 2 ^ 27) / 2 ^ entry.size.vpnBits * 2 ^ entry.size.vpnBits = entry.vpn.toNat ∧ entry.g = false := by
  decide

/-- U-mode with counter 0 enabled for it. -/
def counting : State := csrs (fun c => { c with mcounteren := 1, scounteren := 1 }) (inMode .U State.reset)

theorem test_witness_CsrInstructionResults :
    (csrOf 0x340#12 = some .mscratch ∧ 0x340 / 256 % 4 ≤ State.reset.priv.code.toNat ∧ 0x340 / 1024 ≠ 3 ∧ (1#5 : Reg) ≠ 0#5) ∧
    (csrOf 0x003#12 = some .fcsr ∧ 0x003 / 256 % 4 ≤ counting.priv.code.toNat ∧ 3 ∈ [1, 2, 3] ∧ counting.csr.mstatus.fs ≠ 0#2) ∧
    (csrOf 0x180#12 = some .satp ∧ 0x180 / 256 % 4 ≤ (inMode .S State.reset).priv.code.toNat ∧
      State.reset.csr.mstatus.tvm = false) ∧
    (csrOf 0xC00#12 = some .cycle ∧ 0xC00 / 256 % 4 ≤ counting.priv.code.toNat ∧ counting.csr.mcounteren.getLsbD (0xC00 % 32) = true ∧
      counting.csr.scounteren.getLsbD (0xC00 % 32) = true) ∧
    (csrOf 0x344#12 = some .mip ∧ 0x344 / 256 % 4 ≤ State.reset.priv.code.toNat ∧ CsrName.mscratch ≠ .mip) := by decide

theorem test_witness_CsrAccessCheck :
    State.reset.csrAccess 0xF14 true = none ∧ State.reset.csrAccess 0x7C0 false = none ∧ (1#5 : Reg) ≠ 0#5 := by decide

theorem test_witness_OtherCsrsReadTheirWrites :
    CsrName.stvec ∈ [CsrName.mtvec, .stvec] ∧ CsrName.sepc ∈ [CsrName.mepc, .sepc] ∧ CsrName.scounteren ∈ [CsrName.mcounteren, .scounteren] ∧
    CsrName.minstret ∈ [CsrName.mscratch, .sscratch, .mcause, .scause, .mtval, .stval, .mcycle, .minstret] ∧
    CsrName.pmpaddr 63 ∈ [CsrName.mhpmevent 63, .mhpmcounter 63, .hpmcounter 63, .pmpcfg 63, .pmpaddr 63] := by decide

theorem test_witness_SatpWrites :
    ((0x9000000000000000#64).toNat / 2 ^ 60 ≠ 0 ∧ (0x9000000000000000#64).toNat / 2 ^ 60 ≠ 8) ∧
    (0x8000000000080002#64).toNat / 2 ^ 60 = 8 ∧ (0x00000000000FFFFF#64).toNat / 2 ^ 60 = 0 ∧
    (0x00000000000FFFFF#64).toNat / 2 ^ 44 = State.reset.csr.satp.toNat / 2 ^ 44 := by decide

theorem test_witness_TrapEntry :
    ((inMode .U State.reset).priv ≠ .M ∧ (0x100#64).getLsbD 8 = true ∧ (0x20#64).getLsbD 5 = true) ∧ ¬State.reset.priv ≠ .M := by decide

theorem test_witness_ModeChangesOnlyByTrapsAndReturns :
    stepped (placed 0x30200073) (fun t => t.priv) = some .U ∧ (placed 0x30200073).priv ≠ .U ∧
    stepped (inMode .U (placed 0x00000073)) (fun t => t.priv) = some .M ∧ (inMode .U (placed 0x00000073)).priv ≠ .M ∧
    (stepped (b12 .S ⟨true, false, false⟩ fun c => { c with mie := 0x80 }) (fun t => t.priv) = some .M ∧
      (b12 .S ⟨true, false, false⟩ fun c => { c with mie := 0x80 }).priv ≠ .M) ∧
    (stepped (inMode .U { State.reset with pc := 0#64 }) (fun t => t.priv) = some .M ∧ (inMode .U State.reset).priv ≠ .M) ∧
    (ran (.addi 1 0 10) (inMode .U State.reset) (fun t => t.atBoundary) = some true ∧ Instr.addi 1 0 10 ≠ .mret ∧
      Instr.addi 1 0 10 ≠ .sret) := by decide

theorem test_witness_LowerModesAreConfined :
    ((inMode .U State.reset).priv = .U ∧ ran (.csrrwi 0 3 0x1F) (inMode .U State.reset) (fun t => t.atBoundary) = some true) ∧
    ((inMode .S State.reset).priv = .S ∧ ran (.csrrw 0 0x144 1) (inMode .S State.reset) (fun t => t.atBoundary) = some true ∧
      State.reset.csr.mideleg.getLsbD 1 = false ∧ Instr.csrrw 0 0x144 1 ≠ .sret) := by decide

theorem test_witness_InterruptChoiceAndBoundaries :
    State.reset.waiting = false ∧ State.reset.priv = .M ∧ State.reset.csr.mstatus.mie = false := by decide

theorem test_witness_ClocksAndClint :
    State.reset.lineLag = 0 ∧ State.reset.lineLag ≤ 1 ∧ State.reset.tick.drivenLines = State.reset.drivenLines ∧
    State.reset.endStep.drivenLines = State.reset.drivenLines := by
  have h (n : Word) : (State.reset.advanceBy n).drivenLines = State.reset.drivenLines := by
    simp [State.drivenLines, State.advanceBy, Clint.timerLine, State.reset, State.init]
    exact Nat.zero_le _
  exact ⟨rfl, by decide, h _, (State.latchLines_driven _).trans (h _)⟩

theorem test_witness_PlicClaimsTheBestSource :
    31 < 32 ∧ (⟨(Vector.replicate 32 0#32).set 10 5#32, 0x400#32, 0x400#32, 0#32, 4#32⟩ : Plic).claim.1 ≠ 0 ∧
    (31 : Nat) ≠ 0 ∧ (⟨(Vector.replicate 32 0#32).set 10 5#32, 0x400#32, 0x400#32, 0#32, 4#32⟩ : Plic).inService.getLsbD 31 = false := by
  decide

theorem test_witness_TranslationOffAndPhysicalAddresses :
    satpMode State.reset.csr.satp = 0#4 ∧ State.reset.effPriv .load = .M ∧
    (satpMode (b11 0 0).csr.satp ≠ 0#4 ∧ (b11 0 0).effPriv .load ≠ .M ∧
      ¬(-2 ^ 38 ≤ (0x0000004000000000#64).toInt ∧ (0x0000004000000000#64).toInt < 2 ^ 38) ∧
      ¬(-2 ^ 38 ≤ (0xFFFFFFBFFFFFFFFF#64).toInt ∧ (0xFFFFFFBFFFFFFFFF#64).toInt < 2 ^ 38)) := by decide

theorem test_witness_WalkFindsPermittedLeaves :
    State.inRam State.reset.cfg (0x80002000#64).toNat 8 = true ∧ State.inRam State.reset.cfg (0x80004008#64).toNat 8 = true ∧
    (∃ t, (b11 0x20004047 0).walkFrom 0 .load .S 0x00401234#64 0x80002000#64 2 = (.leaf 0x80004008#64 0x20004047#64 0, t)) ∧
    (∃ t, (b11 0 0).walkFrom 0 .fetch .S 0x80000000#64 0x80002000#64 2 = (.leaf 0x80002010#64 0x200000CF#64 2, t)) :=
  ⟨rfl, rfl, walk_of (by decide +kernel), walk_of (by decide +kernel)⟩

/-- PTEs at 0x80004008 that end a walk in a page fault: malformed, a pointer at level 0, a leaf a store may not use, a
misaligned superpage; one that is a permitted leaf; and one the bus does not give. -/
theorem test_witness_WalkFindsPermittedLeaves_2 :
    let s (pte : Nat) : State := b11 pte 0
    let r (pte : Nat) (acc : Access) (a : Word) (i : Nat) := ((s pte).walkFrom 0 acc .S 0x00401234#64 a i).1
    ((s 0).busRead 0x80004008#64 8).map Prod.fst = some 0#64 ∧ r 0 .load 0x80004000#64 0 = .pageFault ∧
    r 0x20001001 .load 0x80004000#64 0 = .pageFault ∧ r 0x20004043 .store 0x80004000#64 0 = .pageFault ∧
    r 0x20004047 .load 0x80003FF8#64 1 = .pageFault ∧ r 0x20004047 .load 0x80004000#64 0 = .leaf 0x80004008#64 0x20004047#64 0 ∧
    (s 0).busRead 8#64 8 = none ∧ r 0 .load 0#64 0 = .accessFault := by
  decide +kernel

theorem test_witness_TranslatedAccessHasAPermittedEntry :
    (Access.store = .fetch → (b11 0x20004007 0x401230).walkLog = []) ∧ satpMode (b11 0x20004007 0x401230).csr.satp ≠ 0#4 ∧ (b11 0x20004007 0x401230).effPriv .store ≠ .M ∧
    (b11 0x20004007 0x401230).cfg.tlbSize ≠ 0 ∧
    (∃ t, (b11 0x20004007 0x401230).translate .store 0x401230#64 = .ok 0x80010230#64 t) ∧
    ((b11 0x20004007 0x401230).entries .store 0x401230#64).find? (fun e => e.hits 0x401230#64 (satpAsid (b11 0 0).csr.satp)) = none ∧
    State.inRam State.reset.cfg (0x80004008#64).toNat 8 = true :=
  ⟨by decide, by decide, by decide, by decide, ok_of (by decide +kernel), rfl, rfl⟩

/-- A store that finds an entry with D = 0 walks. -/
theorem test_witness_TranslatedAccessHasAPermittedEntry_2 :
    let s := { b11 0x20004007 0x401230 with exact := true, dtlb := [{ entry with asid := satpAsid (b11 0 0).csr.satp, d := false }] }
    (s.entries .store 0x401230#64).find? (fun e => e.hits 0x401230#64 (satpAsid s.csr.satp)) =
      some { entry with asid := satpAsid (b11 0 0).csr.satp, d := false } ∧
    ∃ t, s.translate .store 0x401230#64 = .ok 0x80010230#64 t := ⟨by decide, ok_of (by decide +kernel)⟩

/-- Translations that raise: no entry and a walk that faults either way, an entry that does not permit the access, an address
that is not canonical. -/
theorem test_witness_TranslatedAccessHasAPermittedEntry_3 :
    let s := b11 0 0x401230
    let found (s : State) := (s.entries .store 0x401230#64).find? fun e => e.hits 0x401230#64 (satpAsid s.csr.satp)
    let walked (s : State) :=
      ((s.setTlb .store (s.entries .store 0x401230#64)).useDraw.walkFrom 0 .store (s.effPriv .store) 0x401230#64
        (BitVec.ofNat 64 (s.csr.satp.toNat % 2 ^ 44 * 4096)) 2).1
    let noTable := csrs (fun c => { c with satp := 0x8000000000000000#64 }) s
    let e := { entry with asid := satpAsid s.csr.satp, w := false }
    let t := { s with exact := true, dtlb := [e] }
    satpMode noTable.csr.satp ≠ 0#4 ∧ found s = none ∧ walked s = .pageFault ∧ found noTable = none ∧
    walked noTable = .accessFault ∧ found t = some e ∧ t.permitted .store (t.effPriv .store) e.r e.w e.x e.u = false ∧
    ¬(-2 ^ 38 ≤ (0x4000000000#64).toInt ∧ (0x4000000000#64).toInt < 2 ^ 38) := by decide +kernel

/-- Translations that succeed: an entry that permits the store, one with D = 0 and a walk that finds a leaf, no entry and a fetch
that walks the tables as they are. -/
theorem test_witness_TranslatedAccessHasAPermittedEntry_4 :
    let found (acc : Access) (s : State) := (s.entries acc 0x401230#64).find? fun e => e.hits 0x401230#64 (satpAsid s.csr.satp)
    let walked (acc : Access) (s : State) :=
      ((s.setTlb acc (s.entries acc 0x401230#64)).useDraw.walkFrom 0 acc (s.effPriv acc) 0x401230#64
        (BitVec.ofNat 64 (s.csr.satp.toNat % 2 ^ 44 * 4096)) 2).1
    let e := { entry with asid := satpAsid (b11 0 0).csr.satp }
    let s (e : TlbEntry) := { b11 0x2000400F 0x401230 with exact := true, dtlb := [e], walkLog := [] }
    found .store (s e) = some e ∧ (s e).permitted .store ((s e).effPriv .store) e.r e.w e.x e.u = true ∧ e.d = true ∧
    found .store (s { e with d := false }) = some { e with d := false } ∧
    walked .store (s { e with d := false }) = .leaf 0x80004008#64 0x2000400F#64 0 ∧
    found .fetch (s e) = none ∧ (s e).walkLog = [] ∧ walked .fetch (s e) = .leaf 0x80004008#64 0x2000400F#64 0 := by decide +kernel

/-- A fetch with no earlier tables to see, which walks; and a store that hits, the entry having D = 1. -/
theorem test_witness_TranslationFrame_2 :
    let s : State := { b11 0x2000400F 0x401230 with exact := true, walkLog := [] }
    let e := { entry with asid := satpAsid s.csr.satp }
    s.walkLog = [] ∧ (0x2000400F#64 ||| 0x40#64) ≠ 0x2000400F#64 ∧ (∃ t, s.translate .fetch 0x401230#64 = .ok 0x80010230#64 t) ∧
    ∃ t, State.translate { s with dtlb := [e] } .store 0x401230#64 = .ok 0x80010230#64 t ∧ t.dtlb = [e] :=
  ⟨rfl, by decide, ok_of (by decide +kernel), _, rfl, by decide⟩

/-- A store that finds an entry with D = 0 refills that entry, and an older one of another size that hits stays (R242, R244). -/
theorem test_refill_keeps_others :
    let e := { entry with asid := satpAsid (b11 0 0).csr.satp, d := false }
    let big := { e with vpn := 0x400#27, size := .mib2 }
    let s : State := { b11 0x20004007 0x401230 with exact := true, dtlb := [e, big] }
    (match s.translate .store 0x401230#64 with
      | .ok _ t => t.dtlb.map fun o => (o.size, o.d)
      | .raise _ _ => []) = [(.kib4, true), (.mib2, false)] := by decide +kernel

theorem test_witness_TranslationFrame :
    (0x20004007#64 ||| 0xC0#64) ≠ 0x20004007#64 ∧ (∃ t, (b11 0x20004007 0x401230).translate .store 0x401230#64 = .ok 0x80010230#64 t) ∧
    satpMode State.reset.csr.satp = 0#4 ∧ 0x80004007 < (0x80004008#64).toNat ∧ (0x80004008#64).toNat + 8 ≤ 0x80004010 :=
  ⟨by decide, ok_of (by decide +kernel), rfl, by decide, by decide⟩

/-! ## The cycle-level machine: vectors A.4 and B.13 -/

/-- The timing of the examples of A.4: tRAS 32, tCAS 14, tPRE 14, rows of 2048 bytes. -/
def q : TimingConfig := { Config.default.timing with tRAS := 32, tCAS := 14, tPRE := 14 }

/-- The DRAM latencies of accesses one after another, the bus taking no time. -/
def dramRun : List Nat → Uarch → List Nat
  | [], _ => []
  | a :: as, u =>
    let r := u.dram { q with busLatencyCycles := 0 } a 64
    r.1 :: dramRun as r.2

/-- Q1 to Q4, P11. -/
theorem test_dram_rows :
    dramRun [0x80000000, 0x80000040, 0x80000800, 0x80000000] (Uarch.init Config.default) = [46, 14, 60, 60] := by decide

/-- Q5 to Q7, P13. -/
theorem test_bus_transit :
    transitTime { q with busWidthBytes := 8, busLatencyCycles := 1 } 64 = 8 ∧
    transitTime { q with busWidthBytes := 8, busLatencyCycles := 2 } 4 = 2 ∧
    transitTime { q with busWidthBytes := 8, busLatencyCycles := 2 } 0 = 0 := by decide

/-- P12: 1 + 10 + 46 + 8. The next access to the line hits L1D. -/
theorem test_load_latency :
    let c := { Config.default with timing := q }
    let r : Request := ⟨some ⟨0#64, 0x80000000#64⟩, 0x80000000, false⟩
    let a := (Uarch.init c).access c (fun _ => none) (cachePath c .l1d) 4 r
    a.1 = 65 ∧ (a.2.access c (fun _ => none) (cachePath c .l1d) 4 { r with pa := 0x80000038 }).1 = 1 := by decide

/-- After accesses to ways 0, 2, 3, 1 of four: the victim of LRU, MRU, and of the tree, whose root points right of way 1's half
and whose right node points away from way 3 (R284, R285, R287). -/
theorem test_replacement :
    let run (p : ReplacementPolicy) := [0, 2, 3, 1].foldl (fun (r : ReplState) w => r.access 4 w) (ReplState.reset p 4)
    ((run .lru).victim .lru 4 0#64).1 = 0 ∧ ((run .mru).victim .mru 4 0#64).1 = 1 ∧
    ((run .plru).victim .plru 4 0#64).1 = 2 := by decide

/-- FIFO evicts in the order of installation, hits or not (R286). -/
theorem test_fifo :
    let r := [3, 1, 0, 2].foldl (fun (r : ReplState) w => r.installed w) (ReplState.reset .fifo 4)
    ((r.access 4 3).victim .fifo 4 0#64).1 = 3 := by decide

/-- P10: the indices of GShare under history 0, 1, 3, 7, 15 for pc 0x8000_0010. -/
theorem test_gshare_index :
    [0, 1, 3, 7, 15].map (fun h => Bpu.gshareIndex { Config.default.predictor with tableSize := 16, ghistBits := 4 }
      { Bpu.reset Config.default.predictor with ghist := h } 0x80000010#64) = [8, 9, 11, 15, 7] := by decide

/-- A full RAS of two loses its oldest entry; a return pops; a pop of an empty one leaves it empty (R974). -/
theorem test_ras :
    let c := { Config.default.predictor with rasSize := 2 }
    let push (ras : List Word) (v : Word) := Bpu.rasStep c ras .call v
    push (push (push [] 1#64) 2#64) 3#64 = [3#64, 2#64] ∧ Bpu.rasStep c [3#64, 2#64] .ret 0#64 = [2#64] ∧
    Bpu.rasStep c [] .ret 0#64 = [] := by decide

/-- A latch entry for an instruction with operands, ready for EX. -/
def idEx (i : Instr) (rv : List Word) : IdEx := ⟨0x80000008#64, some i, 4#64, rv, 0x8000000C#64, none⟩

/-- The EX/MEM entry of an instruction with its result. -/
def exMem (i : Instr) (v : Word) : ExMem := ⟨0x80000004#64, some i, [], v, 0#5, 0#64, 0#64, 0x80000008#64, false, none⟩

/-- P1: t0 is forwarded from EX/MEM before MEM/WB, MEM/WB before the value read at decode (R930). -/
theorem test_forward :
    let m := exMem (.addi 5#5 0#5 1#12) 7#64
    let w : MemWb := { State.passMemory (exMem (.addi 5#5 0#5 1#12) 6#64) with trap := none }
    State.forward (some m) (some w) (.x 5#5) 5#64 = 7#64 ∧ State.forward none (some w) (.x 5#5) 5#64 = 6#64 ∧
    State.forward (some m) (some w) (.x 6#5) 5#64 = 5#64 := by decide

/-- P2 and P3: a load in EX/MEM stalls the consumer of its register, and no other instruction (R931). -/
theorem test_load_use :
    State.loadUse (some (exMem (.ld 10#5 8#5 0#12) 0#64)) (idEx (.add 11#5 10#5 5#5) [0#64, 0#64]) = true ∧
    State.loadUse (some (exMem (.ld 10#5 8#5 0#12) 0#64)) (idEx (.addi 11#5 5#5 0#12) [0#64]) = false ∧
    State.loadUse (some (exMem (.addi 10#5 8#5 0#12) 0#64)) (idEx (.add 11#5 10#5 5#5) [0#64, 0#64]) = false := by decide

/-- What f says of the state after one cycle, if there is one. -/
def cycled {α : Type} (s : State) (f : State → α) : Option α :=
  match cycle s with
  | .next t => some (f t)
  | .fault _ => none
  | .refused _ => none

/-- P8: a taken branch that was predicted not taken leaves EX: the latches behind it are bubbles, fetch goes to the target,
one misprediction. -/
theorem test_cycle_mispredict :
    cycled { State.reset with uarch := { State.reset.uarch with fetchHeld := true, idEx := some (idEx (.beq 0#5 0#5 16#13) [0#64, 0#64]) } }
      (fun t => (t.uarch.fetchPc.toNat, t.uarch.idEx.isNone && t.uarch.ifId.isNone, t.uarch.exMem.isSome,
        t.uarch.stats.mispredictions)) = some (0x80000018, true, true, 1) := by decide +kernel

/-- P7: a trap delivered at WB empties the pipeline and sends fetch to the vector; mepc is its pc. -/
theorem test_cycle_trap :
    cycled { (csrs (fun c => { c with mtvec := 0x80000100#64 }) State.reset) with
        uarch := { State.reset.uarch with
          exMem := some (exMem (.addi 5#5 0#5 1#12) 0#64)
          memWb := some { State.passMemory (exMem .ebreak 0#64) with trap := some ⟨.breakpoint, 0x80000004#64⟩ } } }
      (fun t => (t.uarch.fetchPc.toNat, t.uarch.exMem.isNone && t.uarch.ifId.isNone, trapped t)) =
    some (0x80000100, true, (3, 0x80000004, 0x80000004, 0)) := by decide +kernel

/-- A CSR instruction that an old BTB entry sent elsewhere: fetch is put right and stays stopped until it has retired (R943). -/
theorem test_cycle_csr_mispredict :
    cycled { State.reset with uarch := { State.reset.uarch with
        fetchHeld := true, idEx := some { idEx (.csrrw 6#5 0x340#12 5#5) [0#64] with predNext := 0x80000020#64 } } }
      (fun t => (t.uarch.fetchPc.toNat, t.uarch.fetchHeld)) = some (0x8000000C, true) := by decide +kernel

/-- IF makes its access in the cycle in which MEM makes one and stalls, and so both miss (R932, D77). -/
theorem test_cycle_both_miss :
    cycled { setX 7 0x80001000 (placed 0x00A00093) with uarch := { State.reset.uarch with
        exMem := some { exMem (.ld 6#5 7#5 0#12) 0#64 with rv := [0x80001000#64], memAddr := 0x80001000#64 } } }
      (fun t => (t.uarch.l1d.misses, t.uarch.l1i.misses, t.uarch.memBusy.isSome, t.uarch.ifBusy.isSome)) =
      some (1, 1, true, true) := by decide +kernel

/-- The write-back of a line that hits below dirties it, keeps its prefetched bit and moves no stride entry; a demand hit clears
the bit (R283, R292, R293). -/
theorem test_write_back :
    let line : CacheLine := ⟨1, .valid, true⟩
    let c : CacheConfig := { Config.default.l2 with prefetcher := .tagged }
    let s : CacheSet := { CacheSet.reset c with lines := (CacheSet.reset c).lines.set 0 line }
    (s.touch c 0 true false).lines[0]? = some ⟨1, .dirty, true⟩ ∧ (s.touch c 0 false true).lines[0]? = some ⟨1, .valid, false⟩ ∧
    (let cfg := { Config.default with l2 := { Config.default.l2 with prefetcher := .stride } }
     (((Uarch.init cfg).access cfg (fun _ => none) [.l2] 64 ⟨none, 0x80000040, true⟩).2.l2.stride = []) ∧
     ((Uarch.init cfg).access cfg (fun _ => none) [.l2] 64 ⟨some ⟨4#64, 0x40#64⟩, 0x80000040, false⟩).2.l2.stride =
       [(4, some ⟨4#64, 0x40#64, 0#64, 0⟩)]) := by decide +kernel

/-- Control signals (R336): SC counts with the ALU, an FP compare with the FPU, LBU is one byte unsigned, is-compressed by the form (R740). -/
theorem test_control_signals :
    ctrl (.scW 0 0 5 6 7) = ⟨some .alu, some ⟨4, true⟩, none, false⟩ ∧ ctrl (.feqS 5 6 7) = ⟨some .fpu, none, none, false⟩ ∧
    ctrl (.lbu 5 6 0) = ⟨some .load, some ⟨1, false⟩, none, false⟩ ∧ ctrl (.cJalr 5) = ⟨some .pc4, none, some .call, true⟩ ∧
    ctrl (.csrrs 5 0x300 0) = ⟨some .csr, none, none, false⟩ ∧ ctrl (.cSd 0 1 0) = ⟨none, some ⟨8, true⟩, none, true⟩ := by decide

/-- One cycle retires an entry: its register, minstret, mcycle and mtime (R110, R112, R922). -/
theorem test_cycle_retire :
    cycled { State.reset with uarch := { State.reset.uarch with
        fetchHeld := true, memWb := some (State.passMemory (exMem (.addi 5#5 0#5 1#12) 7#64)) } }
      (fun t => (x t 5, t.csr.minstret.toNat, t.csr.mcycle.toNat, t.clint.mtime.toNat)) = some (7, 1, 1, 1) := by decide +kernel

/-- A CSR instruction reads mip in EX, by the lines of that cycle, and writes rd with it at WB; mcycle is read at WB (R713, R924). -/
theorem test_cycle_csr_read :
    cycled { State.reset with
        clint := ⟨false, 100#64, 0#64⟩
        uarch := { State.reset.uarch with
          fetchHeld := true, tickMtip := true, idEx := some (idEx (.csrrs 5#5 0x344#12 0#5) [0#64]) } }
      (fun t => t.uarch.exMem.map ExMem.aluResult) = some (some 0x80#64) ∧
    cycled { State.reset with uarch := { State.reset.uarch with
        fetchHeld := true, memWb := some (State.passMemory (exMem (.csrrs 5#5 0x344#12 0#5) 0x80#64)) } }
      (fun t => (x t 5, t.csr.minstret.toNat)) = some (0x80, 1) ∧
    cycled { State.reset with uarch := { State.reset.uarch with
        fetchHeld := true, memWb := some (State.passMemory (exMem (.csrrs 5#5 0xB00#12 0#5) 0x80#64)) } }
      (fun t => x t 5) = some 1 := by decide +kernel

/-- A walk whose root table is in the PLIC, which takes no 8-byte read, makes that one access, and it costs its transit time (R983,
D63); a store ends the run at syscon and the update of a PTE there does not (R905, log 15). -/
theorem test_rejected_pte_read :
    let s : State := csrs (fun c => { c with satp := 0x800000000000C000#64 }) (inMode .S { State.reset with exact := true })
    s.translationTraffic .load 0#64 = [⟨.l1d, none, 0x0C000000#64, 0x0C000000, 8, false⟩] ∧
    (s.chargeAll 0#64 (s.translationTraffic .load 0#64) s.uarch).1 = 1 ∧
    (s.busWrite 0x00100000#64 8 0x5555#64).map State.ended = some (some .shutdown) ∧
    (s.updatePte 0x00100000#64 0x5555#64).map State.ended = some none := by decide +kernel

/-- P15: the line of a CLINT write in this cycle is not yet in what this cycle's tick produced (R812, R852). -/
theorem test_cycle_lines :
    cycled { State.reset with uarch := { State.reset.uarch with fetchHeld := true } } (fun t => (t.lines.mtip, t.uarch.tickMtip)) =
      some (false, true) ∧
    cycled { State.reset with
        clint := ⟨false, 100#64, 0#64⟩
        uarch := { State.reset.uarch with fetchHeld := true, tickMtip := true } } (fun t => (t.lines.mtip, t.uarch.tickMtip)) =
      some (true, false) := by decide +kernel

theorem test_witness_DramAndBusLatency : 0 < q.busWidthBytes ∧ (Uarch.init Config.default).openRow = none ∧
    ({ Uarch.init Config.default with openRow := some 3 } : Uarch).openRow = some 3 ∧ (3 : Nat) ≠ 4 := by decide

theorem test_witness_LookupsAndMispredictionsAreCounted :
    Level.l1d ∉ [Level.l2, Level.l3] ∧ Level.l1i ∉ Level.l1d :: [Level.l2, Level.l3] ∧
    (exMem (.beq 0#5 0#5 16#13) 0#64).trap = none ∧
    (exMem (.beq 0#5 0#5 16#13) 0#64).decoded = some (.beq 0#5 0#5 16#13) := by decide

theorem test_witness_PipelineRetiresWhatExecSays :
    usesMemory (.jal 1#5 16#21) = false ∧ actsAtWriteback (.jal 1#5 16#21) = false ∧ State.reset.ended = none ∧
    (∃ t, exec (.jal 1#5 16#21) State.reset = .next t ∧ t.atBoundary = true) ∧
    isCsr (.csrrs 5#5 0x344#12 0#5) = true ∧ State.csrNamed (.csrrs 5#5 0x344#12 0#5) = some .mip ∧
    destX (.csrrs 5#5 0x344#12 0#5) = some 5#5 ∧ State.csrNamed (.csrrs 5#5 0x144#12 0#5) = some .sip ∧
    ∃ t, exec (.csrrs 5#5 0x344#12 0#5) State.reset = .next t ∧ t.atBoundary = true :=
  ⟨rfl, rfl, rfl, ⟨_, rfl, rfl⟩, rfl, rfl, rfl, rfl, _, rfl, rfl⟩

end Sys2Proof.Tests
end

section
/-! PROOFS. What an instruction can answer. Every meaning is built from four forms (`ExecForm`), read off once, instruction by
instruction (`exec_form`); precise exceptions, the exceptions of data accesses and the memory frame are inductions over them. -/

/-- An accepted configuration has an even entry point (R13, R45). -/
theorem Sys2Proof.Config.loadBase_even_of_valid {c : Config} (h : c.valid = true) : c.loadBase.getLsbD 0 = false := by
  simp only [valid, Bool.and_eq_true] at h
  obtain ⟨⟨⟨⟨⟨-, hbase⟩, -⟩, -⟩, -⟩, -⟩ := h
  exact eq_of_beq hbase

namespace Sys2Proof.Machine

namespace State

/-! ## The initial state -/

/-- Only the entry point comes from the configuration; everything else the invariant speaks of is empty or 0. -/
theorem inv_init {cfg : Config} (h : cfg.loadBase.getLsbD 0 = false) : (State.init cfg).Inv where
  memWf := .nil
  memInRam := fun _ hc => nomatch hc
  pcEven := h
  mepcEven := BitVec.getLsbD_zero
  sepcEven := BitVec.getLsbD_zero
  mtvecLegal := rfl
  stvecLegal := rfl
  satpLegal := (by decide : legalSatp 0#64 = true)
  medelegMasked := BitVec.zero_and
  midelegMasked := BitVec.zero_and
  mieMasked := BitVec.zero_and
  itlbBounded := Nat.zero_le _
  dtlbBounded := Nat.zero_le _
  resvAligned := fun _ hg => nomatch hg

/-! ## CSR writes -/

@[simp] theorem writeCsr_mem (s : State) (c : CsrName) (v : Word) : (s.writeCsr c v).mem = s.mem := by
  cases c with
  | satp => exact writeSatp_mem s v
  | stvec | mtvec | sip => simp only [writeCsr]; split <;> rfl
  | _ => rfl

@[simp] theorem writeCsr_atBoundary (s : State) (c : CsrName) (v : Word) :
    (s.writeCsr c v).atBoundary = s.atBoundary := by
  cases c with
  | satp => exact writeSatp_atBoundary s v
  | stvec | mtvec | sip => simp only [writeCsr]; split <;> rfl
  | _ => rfl

/-! ## What translation raises -/

/-- What a translation of va for acc may raise: the page fault or the access fault of the access, with va (R230, R822). -/
def FaultOf (acc : Access) (va : Word) (e : Exc) (v : Word) : Prop := v = va ∧ (e = acc.pageFault ∨ e = acc.accessFault)

theorem walk_raise {s : State} {acc : Access} {p : Priv} {va : Word} {e : Exc} {v : Word}
    (h : s.walk acc p va = .raise e v) : FaultOf acc va e v := by
  unfold walk at h
  split at h
  · cases h; exact ⟨rfl, .inl rfl⟩
  · cases h; exact ⟨rfl, .inr rfl⟩
  · dsimp only at h
    split at h
    · cases h
    · split at h
      · cases h; exact ⟨rfl, .inr rfl⟩
      · cases h

theorem earlierWalk_raise {s : State} {k : Nat} {p : Priv} {va : Word} {e : Exc} {v : Word}
    (h : s.earlierWalk k p va = some (.raise e v)) : FaultOf .fetch va e v := by
  unfold earlierWalk at h
  dsimp only at h
  split at h
  · cases h
  · split at h
    · split at h <;> cases h
      exact ⟨rfl, .inl rfl⟩
    · split at h <;> cases h
      exact ⟨rfl, .inr rfl⟩
    · split at h
      · cases h
      · split at h <;> cases h
        exact ⟨rfl, .inl rfl⟩

theorem miss_raise {s : State} {acc : Access} {p : Priv} {va : Word} {e : Exc} {v : Word}
    (h : s.miss acc p va = .raise e v) : FaultOf acc va e v := by
  unfold miss at h
  split at h
  · split at h
    · rename_i he
      subst h
      exact earlierWalk_raise he
    · exact walk_raise h
  · exact walk_raise h

theorem translate_raise {s : State} {acc : Access} {va : Word} {e : Exc} {v : Word}
    (h : s.translate acc va = .raise e v) : FaultOf acc va e v := by
  unfold translate at h
  simp only at h
  split at h
  · cases h
  · split at h
    · cases h; exact ⟨rfl, .inl rfl⟩
    · split at h
      · exact miss_raise h
      · split at h
        · cases h; exact ⟨rfl, .inl rfl⟩
        · split at h
          · exact miss_raise h
          · cases h

/-! ## What the bus refuses -/

/-- The bus answers Err to an access of n bytes at a: no owner, an access beyond RAM's end, or one the device does not accept
(R172, R173). -/
def Refused (c : Config) (a n : Nat) : Prop :=
  ownerOf c a = none ∨ (ownerOf c a = some .ram ∧ inRam c a n = false) ∨
    ∃ d r, ownerOf c a = some (.device d r) ∧ accepts r a n = false

theorem busRead_refused {s : State} {pa : Word} {n : Nat} (h : Refused s.cfg pa.toNat n) : s.busRead pa n = none := by
  unfold busRead
  rcases h with h | ⟨h, hr⟩ | ⟨d, r, h, hr⟩ <;> simp [*]

theorem busWrite_refused {s : State} {pa : Word} {n : Nat} {v : Word} (h : Refused s.cfg pa.toNat n) :
    s.busWrite pa n v = none := by
  unfold busWrite
  rcases h with h | ⟨h, hr⟩ | ⟨d, r, h, hr⟩ <;> simp [*]

/-! ## Data accesses -/

/-- t has every byte of RAM as it was after the translation of ea, but for those a store of n bytes there writes. -/
def OnlyAccessed (s : State) (acc : Access) (ea : Word) (n : Nat) (t : State) : Prop :=
  ∀ pa u, s.translate acc ea = .ok pa u →
    ∀ a, (acc = .store → a < pa.toNat ∨ pa.toNat + n ≤ a) → t.byteAt a = u.byteAt a

/-- r is what a data access of n bytes at ea gives: the exceptions in the order alignment, translation, bus (R205), where
`reaches` says whether the access gets to the bus, and the bytes of RAM it leaves alone. -/
structure MakesAccess {α : Type} (s : State) (acc : Access) (ea : Word) (n : Nat) (reaches : Word → State → Prop)
    (r : Res α) : Prop where
  misaligned  : ea.toNat % n ≠ 0 → r = .raise acc.misaligned ea
  translation : ∀ e v, ea.toNat % n = 0 → s.translate acc ea = .raise e v → r = .raise e v
  refused     : ∀ pa t, ea.toNat % n = 0 → s.translate acc ea = .ok pa t → Refused t.cfg pa.toNat n → reaches pa t →
    r = .raise acc.accessFault ea
  frame       : ∀ a t, r = .ok a t → OnlyAccessed s acc ea n t

/-- The shape all data accesses share: alignment, one translation, and then the bus. -/
theorem makesAccess_of_bus {α : Type} {s : State} {acc : Access} {ea : Word} {n : Nat} {reaches : Word → State → Prop}
    {k : Word → State → Res α}
    (hraise : ∀ pa t, Refused t.cfg pa.toNat n → reaches pa t → k pa t = .raise acc.accessFault ea)
    (hframe : ∀ pa u a t, k pa u = .ok a t →
      ∀ b, (acc = .store → b < pa.toNat ∨ pa.toNat + n ≤ b) → t.byteAt b = u.byteAt b) :
    MakesAccess s acc ea n reaches
      (if !isAligned ea n then .raise acc.misaligned ea else (s.translate acc ea).bind k) where
  misaligned h := by simp [isAligned, h]
  translation e v h ht := by simp [isAligned, h, ht, Res.bind]
  refused pa t h ht hr hp := by simpa [isAligned, h, ht, Res.bind] using hraise pa t hr hp
  frame a t h pa u ht := by
    split at h
    · cases h
    · rw [ht] at h
      exact hframe pa u a t h

theorem makesAccess_memRead (s : State) (ea : Word) (n : Nat) (reaches : Word → State → Prop) :
    MakesAccess s .load ea n reaches (s.memRead ea n) := by
  refine makesAccess_of_bus (fun pa t hr _ => ?_) (fun pa u a t h b _ => ?_)
  · rw [busRead_refused hr]
    rfl
  · split at h
    · cases h
    · rename_i hb
      cases h
      exact byteAt_eq_of_mem (busRead_rest hb).1 b

theorem makesAccess_memWrite (s : State) (ea : Word) (n : Nat) (v : Word) (reaches : Word → State → Prop) :
    MakesAccess s .store ea n reaches (s.memWrite ea n v) := by
  refine makesAccess_of_bus (fun pa t hr _ => ?_) (fun pa u a t h b hb => ?_)
  · rw [busWrite_refused hr]
    rfl
  · split at h
    · cases h
    · rename_i hw
      cases h
      exact byteAt_busWrite_outside hw (hb rfl)

theorem makesAccess_memAmo (s : State) (ea : Word) (n : Nat) (f : Word → Word) (reaches : Word → State → Prop) :
    MakesAccess s .store ea n reaches (s.memAmo ea n f) := by
  refine makesAccess_of_bus (fun pa t hr _ => ?_) (fun pa u a t h b hb => ?_)
  · rw [busRead_refused hr]
    rfl
  · split at h
    · cases h
    · rename_i hrd
      split at h
      · cases h
      · rename_i hw
        cases h
        exact (byteAt_busWrite_outside hw (hb rfl)).trans (byteAt_eq_of_mem (busRead_rest hrd).1 b)

/-- An SC reaches the bus only while its reservation is held (R531, R536). -/
theorem makesAccess_scAccess (s : State) (ea : Word) (n : Nat) (v : Word) :
    MakesAccess s .store ea n (fun pa t => t.resv = some (t.granule pa)) (s.scAccess ea n v) := by
  refine makesAccess_of_bus (fun pa t hr hp => ?_) (fun pa u a t h b hb => ?_)
  · rw [if_pos hp, busWrite_refused hr]
    rfl
  · split at h
    · split at h
      · cases h
      · rename_i hw
        cases h
        exact byteAt_busWrite_outside hw (hb rfl)
    · cases h
      rfl

/-- What an instruction does after its access: it retires and changes no byte of RAM. -/
def Retires {α : Type} (finish : α → State → State) : Prop :=
  ∀ a t, (finish a t).atBoundary = true ∧ ∀ b, (finish a t).byteAt b = t.byteAt b

/-- An access, and then the rest of the instruction. -/
def accessThen {α : Type} (s : State) (r : Res α) (finish : α → State → State) : Result :=
  (r.bind fun a t => .ok () (finish a t)).deliver s

@[simp] theorem accessThen_ok {α : Type} (s t : State) (a : α) (finish : α → State → State) :
    s.accessThen (.ok a t) finish = .next (finish a t) := rfl
@[simp] theorem accessThen_raise {α : Type} (s : State) (e : Exc) (v : Word) (finish : α → State → State) :
    s.accessThen (.raise e v) finish = s.raiseExc e v := rfl

theorem fpGuard_on {s : State} (bits : Word) (k : Result) (h : s.csr.mstatus.fs ≠ 0#2) : s.fpGuard bits k = k := by
  simp [fpGuard, fpEnabled, h]

theorem fpGuard_cases (s : State) (bits : Word) (k : Result) :
    s.fpGuard bits k = k ∨ s.fpGuard bits k = s.raiseExc .illegalInstruction bits := by
  unfold fpGuard
  split
  · exact .inl rfl
  · exact .inr rfl

/-- A trap entry is no retirement (R813). -/
theorem not_retired_of_raiseExc {s t : State} {e : Exc} {v : Word} (h : s.raiseExc e v = .next t) :
    ¬ t.atBoundary = true := by
  cases h
  simp

end State

open State

/-! ## Addresses of compressed accesses -/

/-- A zero-extended immediate of fewer than 12 bits, as the expansion holds it (R740, R741). -/
theorem sext_setWidth {w : Nat} (imm : BitVec w) (h : w < 12) : sext (imm.setWidth 12) = zext imm := by
  have hm : (imm.setWidth 12).msb = false := by
    rw [BitVec.msb_setWidth]
    exact BitVec.getLsbD_of_ge _ _ (by omega)
  unfold sext zext
  rw [BitVec.signExtend_eq_setWidth_of_msb_false hm, BitVec.setWidth_setWidth (by omega)]

/-- The address of a compressed access is that of its expansion. -/
theorem State.effAddr_setWidth {w : Nat} (s : State) (rs1 : Reg) (imm : BitVec w) (h : w < 12) :
    s.effAddr rs1 (imm.setWidth 12) = s.effAddrU rs1 imm := by
  unfold State.effAddr State.effAddrU
  rw [sext_setWidth imm h]

/-! ## The forms of a meaning -/

/-- The answer r of instruction i, whose data access is d, has one of the forms meanings are built from: it retires with RAM as
it was; it raises an exception; it makes its access and retires; and each of these may be behind the check that FS is not Off. -/
inductive ExecForm (i : Instr) (s : State) : Option (Access × Word × Nat) → Result → Prop where
  | retires {t : State} (hb : t.atBoundary = true) (hm : t.mem = s.mem) : ExecForm i s none (.next t)
  | raises (e : Exc) (v : Word) : ExecForm i s none (s.raiseExc e v)
  | accesses {α : Type} {acc : Access} {ea : Word} {n : Nat} {r : Res α} {finish : α → State → State}
      (ha : MakesAccess s acc ea n (fun pa t => instrClass i = .sc → t.resv = some (t.granule pa)) r)
      (hf : Retires finish) : ExecForm i s (some (acc, ea, n)) (s.accessThen r finish)
  | guarded {d : Option (Access × Word × Nat)} {r : Result} (bits : Word) (hi : isFp i = true) (h : ExecForm i s d r) :
      ExecForm i s d (s.fpGuard bits r)

namespace ExecForm

variable {i : Instr} {s : State}

theorem result (rd : Reg) (v size : Word) : ExecForm i s none (s.result rd v size) := .retires rfl (by simp)

theorem jumpAndLink (rd : Reg) (target size : Word) : ExecForm i s none (s.jumpAndLink rd target size) :=
  .retires rfl (by simp)

theorem branch (taken : Bool) (offset size : Word) : ExecForm i s none (s.branch taken offset size) := .retires rfl rfl

theorem illegalUnless {c : Prop} [Decidable c] {r : Result} {bits : Word} (h : ExecForm i s none r) :
    ExecForm i s none (if c then r else s.illegal bits) := by
  split
  · exact h
  · exact .raises _ _

theorem csrOp (bits : Word) (rd : Reg) (csr : BitVec 12) (writes : Bool) (new : Word → Word) :
    ExecForm i s none (s.csrOp bits rd csr writes new) := by
  unfold State.csrOp
  split
  · exact .raises _ _
  · refine .retires ?_ ?_ <;> split <;> simp

theorem loadX (rd : Reg) (ea : Word) (n : Nat) (extend : Word → Word) (size : Word) :
    ExecForm i s (some (.load, ea, n)) (s.loadX rd ea n extend size) :=
  .accesses (makesAccess_memRead ..) fun _ _ => ⟨rfl, by simp⟩

theorem loadF (hi : isFp i = true) (bits : Word) (rd : Reg) (ea : Word) (n : Nat) (make : Word → Word) (size : Word) :
    ExecForm i s (some (.load, ea, n)) (s.fpGuard bits (s.loadF rd ea n make size)) :=
  .guarded bits hi (.accesses (makesAccess_memRead ..) fun _ _ => ⟨rfl, by simp⟩)

theorem store (ea : Word) (n : Nat) (v size : Word) : ExecForm i s (some (.store, ea, n)) (s.store ea n v size) :=
  .accesses (makesAccess_memWrite ..) fun _ _ => ⟨rfl, by simp⟩

theorem storeF (hi : isFp i = true) (bits ea : Word) (n : Nat) (v size : Word) :
    ExecForm i s (some (.store, ea, n)) (s.fpGuard bits (s.store ea n v size)) := .guarded bits hi (store ea n v size)

theorem loadReserved (rd : Reg) (a : Word) (n : Nat) (extend : Word → Word) :
    ExecForm i s (some (.load, a, n)) (s.loadReserved rd a n extend) :=
  .accesses (makesAccess_memRead ..) fun v t => ⟨rfl, byteAt_writeX t rd (extend v.1)⟩

theorem storeConditional (hi : instrClass i = .sc) (rd : Reg) (a : Word) (n : Nat) (v : Word) :
    ExecForm i s (some (.store, a, n)) (s.storeConditional rd a n v) := by
  have ha := makesAccess_scAccess s a n v
  exact .accesses { ha with refused := fun pa t hal ht hr hp => ha.refused pa t hal ht hr (hp hi) }
    fun c t => ⟨rfl, byteAt_writeX t rd c⟩

theorem amoW (rd : Reg) (a src : Word) (f : BitVec 32 → BitVec 32 → BitVec 32) :
    ExecForm i s (some (.store, a, 4)) (s.amoW rd a src f) :=
  .accesses (makesAccess_memAmo ..) fun _ _ => ⟨rfl, by simp⟩

theorem amoD (rd : Reg) (a src : Word) (f : Word → Word → Word) :
    ExecForm i s (some (.store, a, 8)) (s.amoD rd a src f) :=
  .accesses (makesAccess_memAmo ..) fun _ _ => ⟨rfl, by simp⟩

theorem resultS (rd : Reg) (r : BitVec 32) (flags : FFlags) : ExecForm i s none (s.resultS rd r flags) :=
  .retires rfl (by simp)
theorem resultD (rd : Reg) (r : BitVec 64) (flags : FFlags) : ExecForm i s none (s.resultD rd r flags) :=
  .retires rfl (by simp)
theorem resultX (rd : Reg) (v : Word) (flags : FFlags) : ExecForm i s none (s.resultX rd v flags) :=
  .retires rfl (by simp)

theorem fpRounded (hi : isFp i = true) (bits : Word) (rm : BitVec 3) {k : RoundingMode → Result}
    (hk : ∀ m, ExecForm i s none (k m)) : ExecForm i s none (s.fpRounded bits rm k) := by
  refine .guarded bits hi ?_
  split
  · exact hk _
  · exact .raises _ _

/-- A compressed instruction's data access is given by its expansion, which adds its immediate sign-extended. -/
theorem compressed {w : Nat} {acc : Access} {rs1 : Reg} {uimm : BitVec w} {n : Nat} {r : Result} (hw : w < 12)
    (h : ExecForm i s (some (acc, s.effAddrU rs1 uimm, n)) r) :
    ExecForm i s (some (acc, s.effAddr rs1 (uimm.setWidth 12), n)) r := effAddr_setWidth s rs1 uimm hw ▸ h

end ExecForm

/-- Every instruction's answer has one of the forms, with the data access the instruction is said to make. The dispatch is
unfolded before the case split, so that each form meets an instruction's meaning by its name. -/
theorem exec_form (i : Instr) (s : State) : ExecForm i s (dataAccess i s) (exec i s) := by
  unfold exec
  cases i with
  | lui | auipc | addi | slti | sltiu | xori | ori | andi | slli | srli | srai | add | sub | sll | slt | sltu | xor
  | srl | sra | or | and | addiw | slliw | srliw | sraiw | addw | subw | sllw | srlw | sraw | mul | mulh | mulhsu
  | mulhu | div | divu | rem | remu | mulw | divw | divuw | remw | remuw | cAddi4spn | cAddi | cAddiw | cLi
  | cAddi16sp | cLui | cSrli | cSrai | cAndi | cSub | cXor | cOr | cAnd | cSubw | cAddw | cSlli | cMv | cAdd =>
    exact .result ..
  | jal | jalr | cJ | cJr | cJalr =>
    exact .jumpAndLink ..
  | beq | bne | blt | bge | bltu | bgeu | cBeqz | cBnez =>
    exact .branch ..
  | lb | lh | lw | ld | lbu | lhu | lwu =>
    exact .loadX ..
  | sb | sh | sw | sd =>
    exact .store ..
  | cLw | cLd | cLwsp | cLdsp =>
    exact .compressed (by decide) (.loadX ..)
  | cSw | cSd | cSwsp | cSdsp =>
    exact .compressed (by decide) (.store ..)
  | flw | fld =>
    exact .loadF rfl ..
  | fsw | fsd =>
    exact .storeF rfl ..
  | cFld | cFldsp =>
    exact .compressed (by decide) (.loadF rfl ..)
  | cFsd | cFsdsp =>
    exact .compressed (by decide) (.storeF rfl ..)
  | lrW | lrD =>
    exact .loadReserved ..
  | scW | scD =>
    exact .storeConditional rfl ..
  | amoswapW | amoaddW | amoxorW | amoandW | amoorW | amominW | amomaxW | amominuW | amomaxuW =>
    exact .amoW ..
  | amoswapD | amoaddD | amoxorD | amoandD | amoorD | amominD | amomaxD | amominuD | amomaxuD =>
    exact .amoD ..
  | fmaddS | fmsubS | fnmsubS | fnmaddS | faddS | fsubS | fmulS | fdivS | fsqrtS | fcvtSW | fcvtSWu | fcvtSL
  | fcvtSLu | fcvtSD =>
    exact .fpRounded rfl _ _ fun _ => .resultS ..
  | fmaddD | fmsubD | fnmsubD | fnmaddD | faddD | fsubD | fmulD | fdivD | fsqrtD | fcvtDW | fcvtDWu | fcvtDL
  | fcvtDLu | fcvtDS =>
    exact .fpRounded rfl _ _ fun _ => .resultD ..
  | fcvtWS | fcvtWuS | fcvtLS | fcvtLuS | fcvtWD | fcvtWuD | fcvtLD | fcvtLuD =>
    exact .fpRounded rfl _ _ fun _ => .resultX ..
  | fsgnjS | fsgnjnS | fsgnjxS | fminS | fmaxS | fmvWX =>
    exact .guarded _ rfl (.resultS ..)
  | fsgnjD | fsgnjnD | fsgnjxD | fminD | fmaxD | fmvDX =>
    exact .guarded _ rfl (.resultD ..)
  | fmvXW | feqS | fltS | fleS | fclassS | fmvXD | feqD | fltD | fleD | fclassD =>
    exact .guarded _ rfl (.resultX ..)
  | ecall | ebreak | cEbreak =>
    exact .raises ..
  | mret | sret | wfi | sfenceVma =>
    exact .illegalUnless (.retires rfl rfl)
  | fence | fenceI | cNop =>
    exact .retires rfl rfl
  | csrrw | csrrs | csrrc | csrrwi | csrrsi | csrrci =>
    exact .csrOp ..

namespace ExecForm

variable {i : Instr} {s : State} {r : Result}

/-- An answer of any form is a state that retired, or one exception taken from s. -/
theorem retires_or_raises {d : Option (Access × Word × Nat)} (h : ExecForm i s d r) :
    (∃ t, r = .next t ∧ t.atBoundary = true) ∨ ∃ e v, r = s.raiseExc e v := by
  induction h with
  | retires hb _ => exact .inl ⟨_, rfl, hb⟩
  | raises e v => exact .inr ⟨e, v, rfl⟩
  | @accesses _ _ _ _ r finish _ hf =>
    cases r with
    | ok a t => exact .inl ⟨finish a t, accessThen_ok .., (hf a t).1⟩
    | raise e v => exact .inr ⟨e, v, accessThen_raise ..⟩
  | @guarded _ k bits _ _ ih =>
    rcases fpGuard_cases s bits k with h | h <;> rw [h]
    · exact ih
    · exact .inr ⟨_, _, rfl⟩

/-- The exceptions of a data access, in the order alignment, translation, bus, each taken from s. -/
theorem access_traps {acc : Access} {ea : Word} {n : Nat} (h : ExecForm i s (some (acc, ea, n)) r)
    (hfp : isFp i = true → s.csr.mstatus.fs ≠ 0#2) :
    (ea.toNat % n ≠ 0 → r = s.raiseExc acc.misaligned ea) ∧
    (∀ e v, ea.toNat % n = 0 → s.translate acc ea = .raise e v → r = s.raiseExc e v) ∧
    (∀ pa t, ea.toNat % n = 0 → s.translate acc ea = .ok pa t → Refused t.cfg pa.toNat n →
      (instrClass i = .sc → t.resv = some (t.granule pa)) → r = s.raiseExc acc.accessFault ea) := by
  generalize hd : some (acc, ea, n) = d at h
  induction h with
  | retires | raises => cases hd
  | accesses ha _ =>
    cases hd
    refine ⟨fun h => ?_, fun e v h ht => ?_, fun pa t h ht hr hp => ?_⟩
    · rw [ha.misaligned h, accessThen_raise]
    · rw [ha.translation e v h ht, accessThen_raise]
    · rw [ha.refused pa t h ht hr hp, accessThen_raise]
  | guarded bits hi _ ih =>
    rw [fpGuard_on bits _ (hfp hi)]
    exact ih hd

/-- What a retired instruction with data access d leaves of RAM: with no access, all of it. -/
def MemKept (s : State) : Option (Access × Word × Nat) → State → Prop
  | none, t => ∀ a, t.byteAt a = s.byteAt a
  | some (acc, ea, n), t => OnlyAccessed s acc ea n t

theorem mem_kept {d : Option (Access × Word × Nat)} {t : State} (h : ExecForm i s d r) (hr : r = .next t)
    (ht : t.atBoundary = true) : MemKept s d t := by
  induction h with
  | retires _ hm =>
    cases hr
    exact byteAt_eq_of_mem hm
  | raises => exact absurd ht (not_retired_of_raiseExc hr)
  | @accesses _ _ _ _ r finish ha hf =>
    cases r with
    | ok a u =>
      cases hr
      intro pa w hw b hb
      rw [(hf a u).2 b]
      exact ha.frame a u rfl pa w hw b hb
    | raise => exact absurd ht (not_retired_of_raiseExc hr)
  | @guarded _ k bits _ _ ih =>
    rcases fpGuard_cases s bits k with h | h <;> rw [h] at hr
    · exact ih hr
    · exact absurd ht (not_retired_of_raiseExc hr)

end ExecForm

/-! ## The obligations -/

/-- Settles O47: an answer of any form retires or raises, and an exception is entered from the state it is raised in. -/
theorem exceptionsArePrecise : Obligations.ExceptionsArePrecise :=
  fun i s => (exec_form i s).retires_or_raises

/-- Settles O23: the forms with a data access, and what translation may raise. -/
theorem dataAccessExceptions : Obligations.DataAccessExceptions := by
  intro i s acc ea n hd hfp
  have form := exec_form i s
  rw [hd] at form
  obtain ⟨misaligned, translation, refused⟩ := form.access_traps hfp
  refine ⟨misaligned, fun e v hal ht => ?_, refused⟩
  obtain ⟨rfl, he⟩ := translate_raise ht
  exact ⟨rfl, he, translation e v hal ht⟩

/-- Settles O24: the frame of each form, the access being the only one that writes RAM. -/
theorem memoryFrame : Obligations.MemoryFrame := by
  intro i s t h ht
  have kept := (exec_form i s).mem_kept h ht
  rcases hd : dataAccess i s with _ | ⟨acc, ea, n⟩ <;> rw [hd] at kept <;> exact kept

/-- Settles O9: an accepted configuration has an even entry point. -/
theorem resetStatesMeetTheInvariant : Obligations.ResetStatesMeetTheInvariant := by
  have init (cfg : Config) (h : cfg.valid = true) : (State.init cfg).Inv := inv_init (Config.loadBase_even_of_valid h)
  exact ⟨init, init Config.default (by decide)⟩

end Sys2Proof.Machine
end

section
/-! PROOFS. Every step keeps the invariant. -/
namespace Sys2Proof

/-! ## Decoded instructions are well-formed -/

/-- In a word only the offsets of JAL and the branches are constrained, and the decoder puts a 0 below them (R322, R324). -/
theorem wellFormed_of_decode32 {w : BitVec 32} {i : Instr} (h : decode32 w = some i) : i.wellFormed = true := by
  simp only [decode32, decodeBranch, decodeLoad, decodeStore, decodeOpImm, decodeOpImm32, decodeOp, decodeOp32, decodeAmo,
    decodeLoadFp, decodeStoreFp, decodeFma, decodeOpFp, decodeSystem, decodeMiscMem] at h
  (repeat' split at h) <;> cases h <;> simp only [Instr.wellFormed, lowZero_immB, lowZero_immJ]

/-- A scaled immediate of a parcel is built with 0s below it, and the decoder rejects the fields that must not be 0 (R741,
R742). -/
theorem wellFormed_of_decode16 {p : BitVec 16} {i : Instr} (h : decode16 p = some i) : i.wellFormed = true := by
  simp only [decode16, decodeQ0, decodeQ1, decodeQ1Alu, decodeQ2, decodeQ2Jump] at h
  (repeat' split at h) <;> cases h <;>
    simp_all [Instr.wellFormed, lowZero_nzuimm4spn, lowZero_uimmD, lowZero_uimmW, lowZero_nzimm16, lowZero_offJ, lowZero_offB,
      lowZero_uimmDsp, lowZero_uimmWsp, lowZero_uimmDss, lowZero_uimmWss]

theorem wellFormed_of_decodeCode {c : Code} {i : Instr} (h : decodeCode c = .ok i) : i.wellFormed = true := by
  cases c with
  | half p =>
    rw [decodeCode] at h
    split at h <;> cases h
    exact wellFormed_of_decode16 ‹_›
  | word w =>
    rw [decodeCode] at h
    split at h <;> cases h
    exact wellFormed_of_decode32 ‹_›

namespace Machine

open State

/-- The offset of a well-formed branch or jump is even. -/
theorem bit0_sext_of_lowZero {w : Nat} {imm : BitVec w} (hw : 0 < w) (h : lowZero 1 imm = true) :
    (sext imm).getLsbD 0 = false := bit0_sext hw (lowZero_bits h 0 Nat.one_pos)

/-! ## Instructions -/

theorem State.keeps_illegalUnless {s : State} (h : s.Inv) {c : Prop} [Decidable c] (bits : Word) {t : State} (ht : t.Inv) :
    Keeps (if c then .next t else s.illegal bits) := by
  split
  · exact keeps_next ht
  · exact keeps_raiseExc h _ _

/-- Every instruction with an encoding keeps the invariant: it has one of the shapes that do, and goes on at an even
address. -/
theorem keeps_exec {s : State} (h : s.Inv) {i : Instr} (hi : i.wellFormed = true) : Keeps (exec i s) := by
  have next (t : Word) (ht : t.getLsbD 0 = false) : (s.pc + t).getLsbD 0 = false := bit0_add_even h.pcEven ht
  unfold exec
  cases i with
  | lui | auipc | addi | slti | sltiu | xori | ori | andi | slli | srli | srai | add | sub | sll | slt | sltu | xor
  | srl | sra | or | and | addiw | slliw | srliw | sraiw | addw | subw | sllw | srlw | sraw | mul | mulh | mulhsu
  | mulhu | div | divu | rem | remu | mulw | divw | divuw | remw | remuw | cAddi4spn | cAddi | cAddiw | cLi
  | cAddi16sp | cLui | cSrli | cSrai | cAndi | cSub | cXor | cOr | cAnd | cSubw | cAddw | cSlli | cMv | cAdd =>
    exact keeps_result h _ _ rfl
  | jal | cJ =>
    exact keeps_jumpAndLink h _ _ (next _ (bit0_sext_of_lowZero (by decide) hi))
  | jalr | cJr | cJalr =>
    exact keeps_jumpAndLink h _ _ (bit0_clear _)
  | beq | bne | blt | bge | bltu | bgeu | cBeqz | cBnez =>
    exact keeps_branch h _ (bit0_sext_of_lowZero (by decide) hi) rfl
  | lb | lh | lw | ld | lbu | lhu | lwu | cLw | cLd | cLwsp | cLdsp =>
    exact keeps_loadX h _ _ _ _ rfl
  | sb | sh | sw | sd | cSw | cSd | cSwsp | cSdsp =>
    exact keeps_store h _ _ _ rfl
  | flw | fld | cFld | cFldsp =>
    exact keeps_fpGuard h _ (keeps_loadF h _ _ _ _ rfl)
  | fsw | fsd | cFsd | cFsdsp =>
    exact keeps_fpGuard h _ (keeps_store h _ _ _ rfl)
  | lrW | lrD =>
    exact keeps_loadReserved h _ _ _ _
  | scW | scD =>
    exact keeps_storeConditional h _ _ _ _
  | amoswapW | amoaddW | amoxorW | amoandW | amoorW | amominW | amomaxW | amominuW | amomaxuW =>
    exact keeps_amoW h _ _ _ _
  | amoswapD | amoaddD | amoxorD | amoandD | amoorD | amominD | amomaxD | amominuD | amomaxuD =>
    exact keeps_amoD h _ _ _ _
  | fmaddS | fmsubS | fnmsubS | fnmaddS | faddS | fsubS | fmulS | fdivS | fsqrtS | fcvtSW | fcvtSWu | fcvtSL
  | fcvtSLu | fcvtSD =>
    exact keeps_fpRounded h _ _ fun _ => keeps_resultS h _ _ _
  | fmaddD | fmsubD | fnmsubD | fnmaddD | faddD | fsubD | fmulD | fdivD | fsqrtD | fcvtDW | fcvtDWu | fcvtDL
  | fcvtDLu | fcvtDS =>
    exact keeps_fpRounded h _ _ fun _ => keeps_resultD h _ _ _
  | fcvtWS | fcvtWuS | fcvtLS | fcvtLuS | fcvtWD | fcvtWuD | fcvtLD | fcvtLuD =>
    exact keeps_fpRounded h _ _ fun _ => keeps_resultX h _ _ _
  | fsgnjS | fsgnjnS | fsgnjxS | fminS | fmaxS | fmvWX =>
    exact keeps_fpGuard h _ (keeps_resultS h _ _ _)
  | fsgnjD | fsgnjnD | fsgnjxD | fminD | fmaxD | fmvDX =>
    exact keeps_fpGuard h _ (keeps_resultD h _ _ _)
  | fmvXW | feqS | fltS | fleS | fclassS | fmvXD | feqD | fltD | fleD | fclassD =>
    exact keeps_fpGuard h _ (keeps_resultX h _ _ _)
  | ecall | ebreak | cEbreak =>
    exact keeps_raiseExc h _ _
  | mret =>
    exact keeps_illegalUnless h _ h.returnM
  | sret =>
    exact keeps_illegalUnless h _ h.returnS
  | wfi =>
    exact keeps_illegalUnless h _ ((h.retireTo (next _ rfl)).setWaiting _)
  | sfenceVma =>
    exact keeps_illegalUnless h _ ((h.flushTlbs ..).retireTo (next _ rfl))
  | fence | cNop =>
    exact keeps_next (h.retireTo (next _ rfl))
  | fenceI =>
    exact keeps_next ((h.setFetchLog []).retireTo (next _ rfl))
  | csrrw | csrrs | csrrc | csrrwi | csrrsi | csrrci =>
    exact keeps_csrOp h _ _ _ _ _

/-! ## Steps -/

theorem State.keeps_execCode {s : State} (h : s.Inv) (c : Code) : Keeps (s.execCode c) := by
  unfold execCode
  split
  · exact keeps_raiseExc h _ _
  · exact keeps_exec h (wellFormed_of_decodeCode ‹_›)

theorem State.keeps_runInstr {s : State} (h : s.Inv) : Keeps s.runInstr := by
  have fetched : s.fetchInstr.2.Inv := (kept_fetchInstr s).inv h
  unfold runInstr
  split <;> rename_i hf <;> rw [hf] at fetched
  · exact keeps_raiseExc fetched _ _
  · exact keeps_execCode fetched _

theorem keeps_step {s : State} (h : s.Inv) : Keeps (step s) := by
  unfold step
  split
  · intro t ht
    cases ht
  · split
    · exact keeps_next h.tick
    · split
      · exact keeps_next (h.tick.takeInterrupt _)
      · exact keeps_settle (keeps_runInstr (h.tick.setWaiting false))

/-- Settles O8: every step is made of operations that keep the invariant. -/
theorem everyStepKeepsTheInvariant : Obligations.EveryStepKeepsTheInvariant :=
  fun _ t h ht => keeps_step h t ht

end Machine
end Sys2Proof
end

section
/-! PROOFS. Registers and CSRs: what reset leaves in them, what a write leaves to be read, and which access is allowed. -/
namespace Sys2Proof.Machine

/-! ## Words as numbers -/

theorem ofNat_toNat_add (a : Word) (n : Nat) : BitVec.ofNat 64 (a.toNat + n) = a + BitVec.ofNat 64 n := by
  rw [BitVec.ofNat_add, BitVec.ofNat_toNat, BitVec.setWidth_eq]

/-- Clearing bit 0 rounds down to an even number (R84, R85). -/
theorem clearBit0_eq_ofNat (v : Word) : v &&& ~~~1#64 = BitVec.ofNat 64 (v.toNat / 2 * 2) := by
  have shifted : v &&& ~~~1#64 = v >>> 1 <<< 1 := by
    apply BitVec.eq_of_getLsbD_eq
    intro i hi
    simp only [BitVec.getLsbD_and, BitVec.getLsbD_not, BitVec.getLsbD_one, BitVec.getLsbD_shiftLeft,
      BitVec.getLsbD_ushiftRight]
    cases i with
    | zero => simp
    | succ i => simp [hi, Nat.add_comm 1 i]
  rw [shifted, ← BitVec.toNat_inj]
  simp [Nat.shiftRight_eq_div_pow, Nat.shiftLeft_eq]

theorem counteren_eq_ofNat (v : Word) : (v.setWidth 32).setWidth 64 = BitVec.ofNat 64 (v.toNat % 2 ^ 32) := by
  rw [← BitVec.ofNat_toNat, BitVec.toNat_setWidth]

theorem fcsr_eq_ofNat (frm : BitVec 3) (fflags : BitVec 5) :
    (frm ++ fflags : BitVec 8).setWidth 64 = BitVec.ofNat 64 (frm.toNat * 32 + fflags.toNat) := by
  rw [← BitVec.toNat_inj, BitVec.toNat_setWidth, BitVec.toNat_append, ← Nat.shiftLeft_add_eq_or_of_lt fflags.isLt,
    Nat.shiftLeft_eq, BitVec.toNat_ofNat]

theorem fcsrFrm_eq_ofNat (v : Word) : v.extractLsb' 5 3 = BitVec.ofNat 3 (v.toNat / 32) := by
  rw [BitVec.extractLsb', Nat.shiftRight_eq_div_pow]

theorem legalTvec_iff (v : Word) : legalTvec v = true ↔ v.toNat % 4 ≤ 1 := by
  simp only [legalTvec, Bool.or_eq_true, beq_iff_eq, ← BitVec.toNat_inj, BitVec.extractLsb'_toNat, BitVec.toNat_ofNat,
    Nat.shiftRight_zero]
  omega

theorem satpMode_toNat (v : Word) : (satpMode v).toNat = v.toNat / 2 ^ 60 := by
  have := v.isLt
  simp only [satpMode, BitVec.extractLsb'_toNat, Nat.shiftRight_eq_div_pow]
  omega

theorem satpAsid_toNat (v : Word) : (satpAsid v).toNat = v.toNat / 2 ^ 44 % 2 ^ 16 := by
  simp only [satpAsid, BitVec.extractLsb'_toNat, Nat.shiftRight_eq_div_pow]

theorem legalSatp_iff (v : Word) : legalSatp v = true ↔ v.toNat / 2 ^ 60 = 0 ∨ v.toNat / 2 ^ 60 = 8 := by
  simp only [legalSatp, Bool.or_eq_true, beq_iff_eq, ← BitVec.toNat_inj, satpMode_toNat]
  rfl

/-- MODE and ASID are all of satp above PPN. -/
theorem satp_mode_asid_eq_iff (v w : Word) :
    (satpMode v = satpMode w ∧ satpAsid v = satpAsid w) ↔ v.toNat / 2 ^ 44 = w.toNat / 2 ^ 44 := by
  simp only [← BitVec.toNat_inj, satpMode_toNat, satpAsid_toNat]
  omega

/-! ## mstatus -/

namespace Mstatus

/-- Bit i of mstatus (R60). -/
def bit (m : Mstatus) : Nat → Bool
  | 1 => m.sie
  | 3 => m.mie
  | 5 => m.spie
  | 7 => m.mpie
  | 8 => m.spp
  | 11 => m.mpp.code.getLsbD 0
  | 12 => m.mpp.code.getLsbD 1
  | 13 => m.fs.getLsbD 0
  | 14 => m.fs.getLsbD 1
  | 17 => m.mprv
  | 18 => m.sum
  | 19 => m.mxr
  | 20 => m.tvm
  | 21 => m.tw
  | 22 => m.tsr
  | 33 | 35 => true
  | 63 => m.sd
  | _ => false

theorem getLsbD_toWord (m : Mstatus) {i : Nat} (hi : i < 64) : m.toWord.getLsbD i = m.bit i := by
  unfold toWord
  interval_cases i <;>
    simp only [BitVec.getLsbD_append, ↓reduceIte, Nat.reduceLT, Nat.reduceSub, BitVec.getLsbD_ofBool, decide_true,
      Bool.true_and] <;> rfl

/-- The SD bit as a word: bit 63 when FS is Dirty (R60). -/
def sdWord (fs : BitVec 2) : Word := if fs = 3#2 then 0x8000000000000000#64 else 0#64

theorem getLsbD_sdWord (fs : BitVec 2) (i : Nat) : (sdWord fs).getLsbD i = (i == 63 && fs == 3#2) := by
  unfold sdWord
  split
  · rw [show 0x8000000000000000#64 = BitVec.twoPow 64 63 from rfl, BitVec.getLsbD_twoPow]
    simp [*, Bool.beq_eq_decide_eq, eq_comm]
  · simp [*]

theorem code_getD_ofCode? (c : BitVec 2) (p : Priv) :
    ((Priv.ofCode? c).getD p).code = if c = 2#2 then p.code else c := by
  revert c
  cases p <;> decide

/-- Bit by bit: a written bit is the value's, a constant is itself, and where 2 was written to MPP it is as it was (R60). -/
theorem toWord_write (m : Mstatus) (v : Word) :
    let writable := if v.extractLsb' 11 2 = 2#2 then 0x7E61AA#64 else 0x7E79AA#64
    (m.write v).toWord = (v &&& writable) ||| (m.toWord &&& (0x7E79AA#64 &&& ~~~writable)) ||| 0xA00000000#64 |||
      sdWord (v.extractLsb' 13 2) := by
  apply BitVec.eq_of_getLsbD_eq
  intro i hi
  simp only [BitVec.getLsbD_or, BitVec.getLsbD_and, getLsbD_toWord _ hi, getLsbD_sdWord]
  split <;> interval_cases i <;> simp [bit, write, sd, code_getD_ofCode?, *]

/-- Bit by bit: a bit of the mask is the value's, SD is computed, and every other bit is as it was (R61). -/
theorem toWord_writeSstatus (m : Mstatus) (v : Word) : (m.writeSstatus v).toWord =
    (v &&& 0xC6122#64) ||| (m.toWord &&& 0x7FFFFFFFFFF39EDD#64) ||| sdWord (v.extractLsb' 13 2) := by
  apply BitVec.eq_of_getLsbD_eq
  intro i hi
  simp only [BitVec.getLsbD_or, BitVec.getLsbD_and, getLsbD_toWord _ hi, getLsbD_sdWord]
  interval_cases i <;> simp [bit, writeSstatus, sd]

end Mstatus

/-! ## The address map -/

/-- The CSR c stands at address n (R53). -/
def CsrName.At (n : Nat) : CsrName → Prop
  | .fflags => n = 0x001
  | .frm => n = 0x002
  | .fcsr => n = 0x003
  | .sstatus => n = 0x100
  | .sie => n = 0x104
  | .stvec => n = 0x105
  | .scounteren => n = 0x106
  | .sscratch => n = 0x140
  | .sepc => n = 0x141
  | .scause => n = 0x142
  | .stval => n = 0x143
  | .sip => n = 0x144
  | .satp => n = 0x180
  | .mstatus => n = 0x300
  | .misa => n = 0x301
  | .medeleg => n = 0x302
  | .mideleg => n = 0x303
  | .mie => n = 0x304
  | .mtvec => n = 0x305
  | .mcounteren => n = 0x306
  | .mcountinhibit => n = 0x320
  | .mhpmevent k => n = 0x320 + k ∧ 3 ≤ k ∧ k ≤ 31
  | .mscratch => n = 0x340
  | .mepc => n = 0x341
  | .mcause => n = 0x342
  | .mtval => n = 0x343
  | .mip => n = 0x344
  | .pmpcfg k => n = 0x3A0 + k ∧ k ≤ 14
  | .pmpaddr k => n = 0x3B0 + k ∧ k ≤ 63
  | .mcycle => n = 0xB00
  | .minstret => n = 0xB02
  | .mhpmcounter k => n = 0xB00 + k ∧ 3 ≤ k ∧ k ≤ 31
  | .cycle => n = 0xC00
  | .time => n = 0xC01
  | .instret => n = 0xC02
  | .hpmcounter k => n = 0xC00 + k ∧ 3 ≤ k ∧ k ≤ 31
  | .mvendorid => n = 0xF11
  | .marchid => n = 0xF12
  | .mimpid => n = 0xF13
  | .mhartid => n = 0xF14
  | .mconfigptr => n = 0xF15

theorem CsrName.at_of_csrOf {a : BitVec 12} {c : CsrName} (h : csrOf a = some c) : c.At a.toNat := by
  unfold csrOf at h
  split at h
  case h_37 =>
    simp only [Bool.and_eq_true, decide_eq_true_eq] at h
    (repeat' split at h) <;> cases h <;> simp only [At] <;> omega
  all_goals
    cases h
    rfl

/-! ## The access check (R711) -/

/-- Bits 9:8 of an address as a number. -/
theorem privField_toNat (a : BitVec 12) : (a.extractLsb' 8 2).toNat = a.toNat / 256 % 4 := by
  simp only [BitVec.extractLsb'_toNat, Nat.shiftRight_eq_div_pow]

/-- Bits 11:10 of an address as a number. -/
theorem readOnlyField_toNat (a : BitVec 12) : (a.extractLsb' 10 2).toNat = a.toNat / 1024 := by
  have := a.isLt
  simp only [BitVec.extractLsb'_toNat, Nat.shiftRight_eq_div_pow]
  omega

namespace State

theorem csrPrivOk_iff (s : State) (a : BitVec 12) : s.csrPrivOk a = true ↔ a.toNat / 256 % 4 ≤ s.priv.code.toNat := by
  unfold csrPrivOk
  cases s.priv <;>
    simp only [Bool.or_eq_true, beq_iff_eq, ← BitVec.toNat_inj, privField_toNat, Priv.code, BitVec.toNat_ofNat,
      true_iff] <;> omega

/-- The check that depends on the CSR itself, read off its address (R711(d) to (f)). -/
theorem csrOwnCheck_of_at {s : State} {c : CsrName} {n : Nat} (hc : c.At n)
    (hfp : n ∈ [1, 2, 3] → s.csr.mstatus.fs ≠ 0#2) (hsatp : n = 0x180 → s.priv = .S → s.csr.mstatus.tvm = false)
    (hcounter : 0xC00 ≤ n → n < 0xC20 → (s.priv ≠ .M → s.csr.mcounteren.getLsbD (n % 32) = true) ∧
      (s.priv = .U → s.csr.scounteren.getLsbD (n % 32) = true)) : s.csrOwnCheck c = true := by
  have counter (k : Nat) (hk : k < 32) (hn : n = 0xC00 + k) : s.counterOk k = true := by
    have h := hcounter (by omega) (by omega)
    rw [show n % 32 = k by omega] at h
    unfold counterOk
    cases hp : s.priv <;> simp_all
  cases c with
  | fflags | frm | fcsr => simpa [csrOwnCheck] using hfp (by simp_all [CsrName.At])
  | satp =>
    have := hsatp hc
    cases hp : s.priv <;> simp_all [csrOwnCheck]
  | cycle => exact counter 0 (by decide) hc
  | time => exact counter 1 (by decide) hc
  | instret => exact counter 2 (by decide) hc
  | hpmcounter k =>
    obtain ⟨hn, -, hk⟩ := hc
    exact counter k (by omega) hn
  | _ => rfl

/-- The access R711 allows. -/
theorem csrAccess_of_allowed {s : State} {a : BitVec 12} {c : CsrName} {writes : Bool} (ha : csrOf a = some c)
    (hpriv : a.toNat / 256 % 4 ≤ s.priv.code.toNat) (hro : writes = true → a.toNat / 1024 ≠ 3)
    (hown : s.csrOwnCheck c = true) : s.csrAccess a writes = some c := by
  have writable : (writes && a.extractLsb' 10 2 == 3#2) = false := by
    cases writes with
    | false => rfl
    | true =>
      rw [Bool.true_and, beq_eq_false_iff_ne, ne_eq, ← BitVec.toNat_inj, readOnlyField_toNat]
      exact hro rfl
  simp only [csrAccess, ha, (csrPrivOk_iff s a).mpr hpriv, writable, hown, Bool.not_false, Bool.and_true, if_true]

/-- An access that was allowed is to the CSR at the address, in a mode that may make it. -/
theorem csrAccess_some {s : State} {a : BitVec 12} {c : CsrName} {writes : Bool} (h : s.csrAccess a writes = some c) :
    c.At a.toNat ∧ a.toNat / 256 % 4 ≤ s.priv.code.toNat := by
  unfold csrAccess at h
  split at h
  · cases h
  · split at h <;> cases h
    rename_i ha hok
    simp only [Bool.and_eq_true] at hok
    obtain ⟨⟨hpriv, -⟩, -⟩ := hok
    exact ⟨CsrName.at_of_csrOf ha, (csrPrivOk_iff s a).mp hpriv⟩

/-! ## CSR instructions -/

theorem csrOp_writes {s : State} {csr : BitVec 12} {c : CsrName} {writes : Bool} {bits : Word} {rd : Reg}
    {new : Word → Word} (hw : writes = true) (h : s.csrAccess csr true = some c) :
    s.csrOp bits rd csr writes new =
      .next (((s.writeX rd (s.readCsr c)).retireTo (s.pc + 4#64)).writeCsr c (new (s.csrBase c))) := by
  subst hw
  rw [csrOp, h]
  rfl

theorem csrOp_reads {s : State} {csr : BitVec 12} {c : CsrName} {bits : Word} {rd : Reg} {new : Word → Word}
    (h : s.csrAccess csr false = some c) :
    s.csrOp bits rd csr false new = .next ((s.writeX rd (s.readCsr c)).retireTo (s.pc + 4#64)) := by
  rw [csrOp, h]
  rfl

/-! ## Reads and writes -/

theorem mipWith_eq_or (s : State) (seip : Bool) :
    let b (x : Bool) (k : Nat) : Word := if x then BitVec.ofNat 64 (2 ^ k) else 0#64
    s.mipWith seip = b s.csr.ssip 1 ||| b s.lines.msip 3 ||| b s.csr.stip 5 ||| b s.lines.mtip 7 ||| b seip 9 := by
  unfold mipWith
  cases s.csr.ssip <;> cases s.lines.msip <;> cases s.csr.stip <;> cases s.lines.mtip <;> cases seip <;> decide

theorem mipWith_eq_replace (s : State) (x y : Bool) :
    s.mipWith y = (s.mipWith x &&& ~~~0x200#64) ||| (if y then 0x200#64 else 0#64) := by
  unfold mipWith
  cases s.csr.ssip <;> cases s.lines.msip <;> cases s.csr.stip <;> cases s.lines.mtip <;> cases x <;> cases y <;> decide

theorem writeX_frame (s : State) (r : Reg) (v : Word) : { s.writeX r v with x := s.x } = s := by
  unfold State.writeX
  split <;> rfl

theorem writeCsr_mtvec (s : State) (v : Word) :
    s.writeCsr .mtvec v = if v.toNat % 4 ≤ 1 then { s with csr := { s.csr with mtvec := v } } else s := by
  simp only [writeCsr, legalTvec_iff]

theorem writeCsr_stvec (s : State) (v : Word) :
    s.writeCsr .stvec v = if v.toNat % 4 ≤ 1 then { s with csr := { s.csr with stvec := v } } else s := by
  simp only [writeCsr, legalTvec_iff]

theorem writeCsr_satp_illegal {s : State} {v : Word} (h : ¬(v.toNat / 2 ^ 60 = 0 ∨ v.toNat / 2 ^ 60 = 8)) :
    s.writeCsr .satp v = s := if_neg (h ∘ (legalSatp_iff v).mp)

theorem writeCsr_satp_legal {s : State} {v : Word} (h : v.toNat / 2 ^ 60 = 0 ∨ v.toNat / 2 ^ 60 = 8) :
    s.writeCsr .satp v =
      if v.toNat / 2 ^ 44 = s.csr.satp.toNat / 2 ^ 44 then
        { s with csr := { s.csr with satp := v }, walkLog := .satp s.csr.satp :: s.walkLog }
      else { s with csr := { s.csr with satp := v }, itlb := [], dtlb := [], walkLog := [] } := by
  have written : s.writeCsr .satp v = _ := if_pos ((legalSatp_iff v).mpr h)
  simp only [written, satp_mode_asid_eq_iff]

end State

open State

/-! ## The obligations -/

/-- Settles O10: all but mstatus and misa is 0, and so are the views of them all but sstatus. -/
theorem resetValuesOfTheCore : Obligations.ResetValuesOfTheCore := by
  intro cfg
  have mip : (State.init cfg).mip = 0#64 := (by decide : State.reset.mip = 0#64)
  have csrs (c : CsrName) (h1 : c ≠ .mstatus) (h2 : c ≠ .sstatus) (h3 : c ≠ .misa) : (State.init cfg).readCsr c = 0#64 := by
    cases c with
    | mstatus => exact absurd rfl h1
    | sstatus => exact absurd rfl h2
    | misa => exact absurd rfl h3
    | fcsr => exact (by decide : (0#3 ++ 0#5 : BitVec 8).setWidth 64 = 0#64)
    | sie => exact BitVec.zero_and
    | mip => exact mip
    | sip => exact (congrArg (· &&& _) mip).trans BitVec.zero_and
    | _ => rfl
  exact ⟨rfl, rfl, rfl, fun r hr => if_neg hr, fun r => rfl, (by decide : Mstatus.reset.toWord = _),
    (by decide : Mstatus.reset.toSstatus = _), rfl, csrs, rfl, rfl, rfl, rfl, rfl, rfl, rfl, rfl, rfl⟩

/-- Settles O11: reads after writes by the register named, frames by the fields of the updates. -/
theorem registerFilesAndRetirement : Obligations.RegisterFilesAndRetirement := by
  refine ⟨fun s r q v => ⟨?_, rfl, rfl, writeX_frame s r v, ?_, rfl, rfl⟩,
    fun s target => ⟨rfl, (ofNat_toNat_add _ 1).symm, rfl, rfl, rfl⟩, fun s flags => ⟨rfl, fun h => if_neg h⟩⟩
  · split
    · rename_i h0
      rw [h0, readX_zero]
    · rename_i h0
      split
      · rename_i h
        rw [h, readX_writeX_same s v (h ▸ h0)]
      · rename_i h
        exact readX_writeX_ne s v h
  · split
    · rename_i h
      rw [h, readF_writeF_same]
    · rename_i h
      exact readF_writeF_ne s v h

/-- Settles O43: the fields of mstatus, bit by bit. -/
theorem statusRegistersReadTheirWrites : Obligations.StatusRegistersReadTheirWrites :=
  fun s v => ⟨s.csr.mstatus.toWord_write v, rfl, s.csr.mstatus.toWord_writeSstatus v, rfl, rfl⟩

/-- Settles O44: each write is an update of one field, by the value its rule lets through. -/
theorem otherCsrsReadTheirWrites : Obligations.OtherCsrsReadTheirWrites := by
  refine ⟨fun s v => ⟨rfl, rfl, rfl, rfl, rfl, rfl, rfl, rfl, ?_, mipWith_eq_or s _, rfl, rfl, rfl⟩, fun s v => ?_,
    fun s v => ⟨(BitVec.ofNat_toNat 64 _).symm, (BitVec.ofNat_toNat 64 _).symm, fcsr_eq_ofNat _ _, rfl, rfl, ?_⟩⟩
  · simp only [List.forall_mem_cons]
    exact ⟨rfl, rfl, nofun⟩
  · have mtvec : (s.writeCsr .mtvec v).readCsr .mtvec = if v.toNat % 4 ≤ 1 then v else s.readCsr .mtvec := by
      rw [writeCsr_mtvec]
      split <;> rfl
    have stvec : (s.writeCsr .stvec v).readCsr .stvec = if v.toNat % 4 ≤ 1 then v else s.readCsr .stvec := by
      rw [writeCsr_stvec]
      split <;> rfl
    simp only [List.forall_mem_cons]
    exact ⟨⟨mtvec, stvec, nofun⟩, ⟨clearBit0_eq_ofNat v, clearBit0_eq_ofNat v, nofun⟩,
      ⟨rfl, rfl, rfl, rfl, rfl, rfl, rfl, rfl, nofun⟩, ⟨counteren_eq_ofNat v, counteren_eq_ofNat v, nofun⟩,
      writeCsr_mtvec s v, writeCsr_stvec s v, by rw [writeCsr, clearBit0_eq_ofNat], by rw [writeCsr, clearBit0_eq_ofNat],
      rfl, rfl, rfl, rfl, rfl, rfl, rfl, rfl, by rw [writeCsr, BitVec.ofNat_toNat], by rw [writeCsr, BitVec.ofNat_toNat],
      ⟨rfl, rfl, rfl, nofun⟩, rfl, rfl, rfl, rfl,
      ⟨⟨rfl, rfl⟩, ⟨rfl, rfl⟩, ⟨rfl, rfl⟩, ⟨rfl, rfl⟩, ⟨rfl, rfl⟩, ⟨rfl, rfl⟩, nofun⟩, rfl,
      fun n => ⟨⟨rfl, rfl⟩, ⟨rfl, rfl⟩, ⟨rfl, rfl⟩, ⟨rfl, rfl⟩, ⟨rfl, rfl⟩, nofun⟩⟩
  · rw [writeCsr, fcsrFrm_eq_ofNat]
    rfl

/-- Settles O45: MODE and ASID are the bits from 44 up. -/
theorem satpWrites : Obligations.SatpWrites := by
  refine fun s v => ⟨fun h0 h8 => writeCsr_satp_illegal (not_or.mpr ⟨h0, h8⟩), fun h => ?_⟩
  simp only [writeCsr_satp_legal h]
  split <;> exact ⟨rfl, rfl, rfl⟩

/-- Settles O41: the conditions of R711 make the access check answer c; the rest is what a CSR instruction does then. -/
theorem csrInstructionResults : Obligations.CsrInstructionResults := by
  intro s rd rs1 csr u c
  dsimp only [exec, execCsrrw, execCsrrs, execCsrrc, execCsrrwi, execCsrrsi, execCsrrci]
  refine ⟨fun h => ?_, fun h => ?_, fun h => ?_, fun h => ?_⟩
  · obtain ⟨ha, hpriv, hro, hfp, hsatp, hcounter⟩ := h
    have access := csrAccess_of_allowed ha hpriv hro (csrOwnCheck_of_at (CsrName.at_of_csrOf ha) hfp hsatp hcounter)
    exact ⟨csrOp_writes rfl access, csrOp_writes rfl access,
      fun h => ⟨csrOp_writes (bne_iff_ne.mpr h) access, csrOp_writes (bne_iff_ne.mpr h) access⟩,
      fun h => ⟨csrOp_writes (bne_iff_ne.mpr h) access, csrOp_writes (bne_iff_ne.mpr h) access⟩⟩
  · obtain ⟨ha, hpriv, hro, hfp, hsatp, hcounter⟩ := h
    have access := csrAccess_of_allowed ha hpriv hro (csrOwnCheck_of_at (CsrName.at_of_csrOf ha) hfp hsatp hcounter)
    exact ⟨csrOp_reads access, csrOp_reads access, csrOp_reads access, csrOp_reads access⟩
  · cases c with
    | mip => exact absurd rfl h
    | _ => rfl
  · subst h
    exact mipWith_eq_replace s _ _

end Sys2Proof.Machine
end

section
/-! PROOFS. What an instruction that retires leaves alone: registers, CSRs, mode and reservation. Every answer has one of the
forms of `RetireForm`, read off once, instruction by instruction (`exec_retireForm`). -/
namespace Sys2Proof.Machine

namespace State

/-- What an ordinary instruction i may have done before it retires: its destinations, its reservation if it is LR or SC, and the
FP state if it is a floating-point instruction. -/
structure Effect (i : Instr) (s t : State) : Prop where
  x       : ∀ r, destX i ≠ some r → t.readX r = s.readX r
  f       : ∀ r, destF i ≠ some r → t.readF r = s.readF r
  cfg     : t.cfg = s.cfg
  lines   : t.lines = s.lines
  inputs  : t.inputs = s.inputs
  resv    : instrClass i ≠ .lr → instrClass i ≠ .sc → t.resv = s.resv
  priv    : t.priv = s.priv
  csr     : ∃ fflags fs, t.csr = { s.csr with fflags := fflags, mstatus := { s.csr.mstatus with fs := fs } }
  fpState : isFp i = false → t.csr = s.csr

namespace Effect

variable {i : Instr} {s t : State}

theorem of_sameCore (h : SameCore s t) : Effect i s t where
  x r _ := h.readX r
  f r _ := h.readF r
  cfg := h.cfg
  lines := h.lines
  inputs := h.inputs
  resv _ _ := h.resv
  priv := h.priv
  csr := ⟨_, _, h.csr⟩
  fpState _ := h.csr

theorem refl (s : State) : Effect i s s := of_sameCore (.refl s)

theorem writeX (h : Effect i s t) {rd : Reg} (hd : destX i = some rd) (v : Word) : Effect i s (t.writeX rd v) where
  x r hr := (readX_writeX_ne t v fun e => hr (hd.trans (congrArg some e.symm))).trans (h.x r hr)
  f r hr := (readF_writeX t rd r v).trans (h.f r hr)
  cfg := (writeX_cfg t rd v).trans h.cfg
  lines := (writeX_lines t rd v).trans h.lines
  inputs := (writeX_inputs t rd v).trans h.inputs
  resv h1 h2 := (writeX_resv t rd v).trans (h.resv h1 h2)
  priv := (writeX_priv t rd v).trans h.priv
  csr := by rw [writeX_csr]; exact h.csr
  fpState hi := (writeX_csr t rd v).trans (h.fpState hi)

theorem writeF (h : Effect i s t) {rd : Reg} (hd : destF i = some rd) (hi : isFp i = true) (v : Word) :
    Effect i s (t.writeF rd v) where
  x r hr := (readX_writeF t rd r v).trans (h.x r hr)
  f r hr := (readF_writeF_ne t v fun e => hr (hd.trans (congrArg some e.symm))).trans (h.f r hr)
  cfg := h.cfg
  lines := h.lines
  inputs := h.inputs
  resv := h.resv
  priv := h.priv
  csr := by
    obtain ⟨fflags, fs, hc⟩ := h.csr
    exact ⟨fflags, 3#2, by rw [writeF_csr, hc]⟩
  fpState hn := nomatch hi.symm.trans hn

theorem accrue (h : Effect i s t) (hi : isFp i = true) (fl : FFlags) : Effect i s (t.accrue fl) where
  x r hr := (readX_accrue t fl r).trans (h.x r hr)
  f r hr := (readF_accrue t fl r).trans (h.f r hr)
  cfg := (accrue_cfg t fl).trans h.cfg
  lines := (accrue_lines t fl).trans h.lines
  inputs := (accrue_inputs t fl).trans h.inputs
  resv h1 h2 := (accrue_resv t fl).trans (h.resv h1 h2)
  priv := (accrue_priv t fl).trans h.priv
  csr := by
    obtain ⟨fflags, fs, hc⟩ := h.csr
    unfold State.accrue
    split
    · exact ⟨fflags, fs, hc⟩
    · exact ⟨fflags ||| fl, 3#2, by rw [hc, dirtyFp_csr]⟩
  fpState hn := nomatch hi.symm.trans hn

theorem setResv (h : Effect i s t) (hi : instrClass i = .lr ∨ instrClass i = .sc) (g : Option Word) :
    Effect i s { t with resv := g } :=
  { h with resv := fun h1 h2 => (hi.elim h1 h2).elim }

end Effect
end State

open State

/-- How instruction i may have retired in s: as an ordinary instruction, CSR instructions that only read among them; with the write
of a CSR it may access; as MRET; as SRET. -/
inductive Retired (i : Instr) (s : State) : State → Prop where
  | ordinary {t : State} (h : Effect i s t) (target : Word) : Retired i s (t.retireTo target)
  | writesCsr {t : State} (hi : isCsr i = true) (h : Effect i s t) (target : Word) {a : BitVec 12} {writes : Bool}
      {c : CsrName} (ha : s.csrAccess a writes = some c) (v : Word) : Retired i s ((t.retireTo target).writeCsr c v)
  | mret (hi : i = .mret) (hp : s.priv = .M) : Retired i s s.returnM
  | sret (hi : i = .sret) (hp : s.priv ≠ .U) : Retired i s s.returnS

/-- The answer of instruction i: it retires in one of these ways, or it takes a trap from s. -/
inductive RetireForm (i : Instr) (s : State) : Result → Prop where
  | retires {t : State} (h : Retired i s t) : RetireForm i s (.next t)
  | raises (e : Exc) (v : Word) : RetireForm i s (s.raiseExc e v)

namespace RetireForm

variable {i : Instr} {s : State}

theorem ordinary {t : State} (h : Effect i s t) (target : Word) : RetireForm i s (.next (t.retireTo target)) :=
  .retires (.ordinary h target)

theorem result {rd : Reg} (hd : destX i = some rd) (v size : Word) : RetireForm i s (s.result rd v size) :=
  .ordinary ((Effect.refl s).writeX hd v) _

theorem jumpAndLink {rd : Reg} (hd : destX i = some rd) (target size : Word) :
    RetireForm i s (s.jumpAndLink rd target size) := .ordinary ((Effect.refl s).writeX hd _) _

theorem branch (taken : Bool) (offset size : Word) : RetireForm i s (s.branch taken offset size) :=
  .ordinary (.refl s) _

theorem illegalUnless {c : Prop} [Decidable c] {r : Result} {bits : Word} (h : c → RetireForm i s r) :
    RetireForm i s (if c then r else s.illegal bits) := by
  split
  · exact h ‹_›
  · exact .raises _ _

/-- An access, and then the rest of the instruction. -/
theorem accesses {α : Type} {r : Res α} {finish : α → State → State} {target : Word}
    (h : ∀ a t, r = .ok a t → Effect i s (finish a t)) :
    RetireForm i s ((r.bind fun a t => .ok () ((finish a t).retireTo target)).deliver s) := by
  cases r with
  | ok a t => exact .ordinary (h a t rfl) target
  | raise e v => exact .raises e v

theorem loadX {rd : Reg} (hd : destX i = some rd) (ea : Word) (n : Nat) (extend : Word → Word) (size : Word) :
    RetireForm i s (s.loadX rd ea n extend size) :=
  accesses fun _ _ h => (Effect.of_sameCore (kept_memRead h).same).writeX hd _

theorem store (ea : Word) (n : Nat) (v size : Word) : RetireForm i s (s.store ea n v size) :=
  accesses (finish := fun _ t => t) fun _ _ h => .of_sameCore (kept_memWrite h).same

theorem loadReserved {rd : Reg} (hd : destX i = some rd) (hi : instrClass i = .lr) (a : Word) (n : Nat)
    (extend : Word → Word) : RetireForm i s (s.loadReserved rd a n extend) :=
  accesses (finish := fun v t => { t.writeX rd (extend v.1) with resv := some (t.granule v.2) }) fun _ _ h =>
    ((Effect.of_sameCore (kept_memRead h).same).writeX hd _).setResv (.inl hi) _

theorem storeConditional {rd : Reg} (hd : destX i = some rd) (hi : instrClass i = .sc) (a : Word) (n : Nat) (v : Word) :
    RetireForm i s (s.storeConditional rd a n v) :=
  accesses (finish := fun c t => { t.writeX rd c with resv := none }) fun _ _ h =>
    ((Effect.of_sameCore (kept_scAccess h).same).writeX hd _).setResv (.inr hi) _

theorem amoW {rd : Reg} (hd : destX i = some rd) (a src : Word) (f : BitVec 32 → BitVec 32 → BitVec 32) :
    RetireForm i s (s.amoW rd a src f) :=
  accesses fun _ _ h => (Effect.of_sameCore (kept_memAmo h).same).writeX hd _

theorem amoD {rd : Reg} (hd : destX i = some rd) (a src : Word) (f : Word → Word → Word) :
    RetireForm i s (s.amoD rd a src f) :=
  accesses fun _ _ h => (Effect.of_sameCore (kept_memAmo h).same).writeX hd _

theorem guarded {bits : Word} {r : Result} (h : RetireForm i s r) : RetireForm i s (s.fpGuard bits r) :=
  illegalUnless fun _ => h

theorem loadF {rd : Reg} (hd : destF i = some rd) (hi : isFp i = true) (bits ea : Word) (n : Nat) (make : Word → Word)
    (size : Word) : RetireForm i s (s.fpGuard bits (s.loadF rd ea n make size)) :=
  guarded (accesses fun _ _ h => (Effect.of_sameCore (kept_memRead h).same).writeF hd hi _)

theorem rounded {bits : Word} {rm : BitVec 3} {k : RoundingMode → Result} (h : ∀ m, RetireForm i s (k m)) :
    RetireForm i s (s.fpRounded bits rm k) := by
  refine guarded ?_
  split
  · exact h _
  · exact .raises _ _

theorem resultS {rd : Reg} (hd : destF i = some rd) (hi : isFp i = true) (r : BitVec 32) (fl : FFlags) :
    RetireForm i s (s.resultS rd r fl) := .ordinary (((Effect.refl s).writeF hd hi _).accrue hi fl) _
theorem resultD {rd : Reg} (hd : destF i = some rd) (hi : isFp i = true) (r : BitVec 64) (fl : FFlags) :
    RetireForm i s (s.resultD rd r fl) := .ordinary (((Effect.refl s).writeF hd hi _).accrue hi fl) _
theorem resultX {rd : Reg} (hd : destX i = some rd) (hi : isFp i = true) (v : Word) (fl : FFlags) :
    RetireForm i s (s.resultX rd v fl) := .ordinary (((Effect.refl s).writeX hd _).accrue hi fl) _

theorem csrOp {rd : Reg} (hi : isCsr i = true) (hd : destX i = some rd) (bits : Word) (csr : BitVec 12) (writes : Bool)
    (new : Word → Word) : RetireForm i s (s.csrOp bits rd csr writes new) := by
  unfold State.csrOp
  split
  · exact .raises _ _
  · rename_i c ha
    have effect : Effect i s (s.writeX rd (s.readCsr c)) := (Effect.refl s).writeX hd _
    dsimp only
    split
    · exact .retires (.writesCsr hi effect _ ha _)
    · exact .ordinary effect _

end RetireForm

/-- Every instruction's answer has one of the forms. -/
theorem exec_retireForm (i : Instr) (s : State) : RetireForm i s (exec i s) := by
  unfold exec
  cases i with
  | lui | auipc | addi | slti | sltiu | xori | ori | andi | slli | srli | srai | add | sub | sll | slt | sltu | xor
  | srl | sra | or | and | addiw | slliw | srliw | sraiw | addw | subw | sllw | srlw | sraw | mul | mulh | mulhsu
  | mulhu | div | divu | rem | remu | mulw | divw | divuw | remw | remuw | cAddi4spn | cAddi | cAddiw | cLi
  | cAddi16sp | cLui | cSrli | cSrai | cAndi | cSub | cXor | cOr | cAnd | cSubw | cAddw | cSlli | cMv | cAdd =>
    exact .result rfl ..
  | jal | jalr | cJ | cJr | cJalr =>
    exact .jumpAndLink rfl ..
  | beq | bne | blt | bge | bltu | bgeu | cBeqz | cBnez =>
    exact .branch ..
  | lb | lh | lw | ld | lbu | lhu | lwu | cLw | cLd | cLwsp | cLdsp =>
    exact .loadX rfl ..
  | sb | sh | sw | sd | cSw | cSd | cSwsp | cSdsp =>
    exact .store ..
  | flw | fld | cFld | cFldsp =>
    exact .loadF rfl rfl ..
  | fsw | fsd | cFsd | cFsdsp =>
    exact .guarded (.store ..)
  | lrW | lrD =>
    exact .loadReserved rfl rfl ..
  | scW | scD =>
    exact .storeConditional rfl rfl ..
  | amoswapW | amoaddW | amoxorW | amoandW | amoorW | amominW | amomaxW | amominuW | amomaxuW =>
    exact .amoW rfl ..
  | amoswapD | amoaddD | amoxorD | amoandD | amoorD | amominD | amomaxD | amominuD | amomaxuD =>
    exact .amoD rfl ..
  | fmaddS | fmsubS | fnmsubS | fnmaddS | faddS | fsubS | fmulS | fdivS | fsqrtS | fcvtSW | fcvtSWu | fcvtSL
  | fcvtSLu | fcvtSD =>
    exact .rounded fun _ => .resultS rfl rfl ..
  | fmaddD | fmsubD | fnmsubD | fnmaddD | faddD | fsubD | fmulD | fdivD | fsqrtD | fcvtDW | fcvtDWu | fcvtDL
  | fcvtDLu | fcvtDS =>
    exact .rounded fun _ => .resultD rfl rfl ..
  | fcvtWS | fcvtWuS | fcvtLS | fcvtLuS | fcvtWD | fcvtWuD | fcvtLD | fcvtLuD =>
    exact .rounded fun _ => .resultX rfl rfl ..
  | fsgnjS | fsgnjnS | fsgnjxS | fminS | fmaxS | fmvWX =>
    exact .guarded (.resultS rfl rfl ..)
  | fsgnjD | fsgnjnD | fsgnjxD | fminD | fmaxD | fmvDX =>
    exact .guarded (.resultD rfl rfl ..)
  | fmvXW | feqS | fltS | fleS | fclassS | fmvXD | feqD | fltD | fleD | fclassD =>
    exact .guarded (.resultX rfl rfl ..)
  | ecall | ebreak | cEbreak =>
    exact .raises ..
  | mret =>
    exact .illegalUnless fun hp => .retires (.mret rfl hp)
  | sret =>
    refine .illegalUnless fun h => .retires (.sret rfl fun hp => ?_)
    simp [allowedBelowM, hp] at h
  | wfi =>
    exact .illegalUnless fun _ => .ordinary (t := { s with waiting := s.cfg.wfiWaits }) { Effect.refl s with } _
  | sfenceVma =>
    exact .illegalUnless fun _ => .ordinary (.of_sameCore (by constructor <;> rfl)) _
  | fence | cNop =>
    exact .ordinary (.refl s) _
  | fenceI =>
    exact .ordinary (.of_sameCore (by constructor <;> rfl)) _
  | csrrw | csrrs | csrrc | csrrwi | csrrsi | csrrci =>
    exact .csrOp rfl rfl ..

theorem retired_of_exec {i : Instr} {s t : State} (h : exec i s = .next t) (ht : t.atBoundary = true) : Retired i s t := by
  have form := exec_retireForm i s
  generalize exec i s = r at form h
  cases form with
  | retires k =>
    cases h
    exact k
  | raises e v => exact absurd ht (not_retired_of_raiseExc h)

/-! ## CSR writes -/

/-- A CSR write reaches CSRs, TLBs and the log of walks. -/
theorem State.writeCsr_frame (s : State) (c : CsrName) (v : Word) : ∃ csr itlb dtlb walkLog,
    s.writeCsr c v = { s with csr := csr, itlb := itlb, dtlb := dtlb, walkLog := walkLog } := by
  cases c with
  | satp =>
    show ∃ _ _ _ _, s.writeSatp v = _
    unfold writeSatp
    (repeat' split) <;> exact ⟨_, _, _, _, rfl⟩
  | stvec | mtvec | sip =>
    simp only [writeCsr]
    split <;> exact ⟨_, _, _, _, rfl⟩
  | _ => exact ⟨_, _, _, _, rfl⟩

/-- Of the CSRs U-mode may access only fflags, frm and fcsr are written; the others are the counters' views, which ignore a
write. -/
theorem CsrName.At.user {n : Nat} {c : CsrName} (h : c.At n) (hn : n / 256 % 4 = 0) :
    c = .fflags ∨ c = .frm ∨ c = .fcsr ∨ ∀ (s : State) (v : Word), s.writeCsr c v = s := by
  cases c with
  | fflags | frm | fcsr => simp
  | misa | mcountinhibit | mhpmevent | pmpcfg | pmpaddr | mhpmcounter | cycle | time | instret | hpmcounter | mvendorid
  | marchid | mimpid | mhartid | mconfigptr => exact .inr (.inr (.inr fun _ _ => rfl))
  | _ =>
    simp only [CsrName.At] at h
    omega

/-- What S-mode leaves of the CSRs: the registers of M-mode, but mstatus.MPRV and the counter of retirements. -/
structure MachineKept (c d : Csrs) : Prop where
  medeleg    : d.medeleg = c.medeleg
  mideleg    : d.mideleg = c.mideleg
  mtvec      : d.mtvec = c.mtvec
  mscratch   : d.mscratch = c.mscratch
  mepc       : d.mepc = c.mepc
  mcause     : d.mcause = c.mcause
  mtval      : d.mtval = c.mtval
  mcounteren : d.mcounteren = c.mcounteren
  mcycle     : d.mcycle = c.mcycle
  mie        : d.mie &&& ~~~c.mideleg = c.mie &&& ~~~c.mideleg
  stip       : d.stip = c.stip
  seip       : d.seip = c.seip
  ssip       : c.mideleg.getLsbD 1 = false → d.ssip = c.ssip
  mstatusMie  : d.mstatus.mie = c.mstatus.mie
  mstatusMpie : d.mstatus.mpie = c.mstatus.mpie
  mstatusMpp  : d.mstatus.mpp = c.mstatus.mpp
  mstatusTvm  : d.mstatus.tvm = c.mstatus.tvm
  mstatusTw   : d.mstatus.tw = c.mstatus.tw
  mstatusTsr  : d.mstatus.tsr = c.mstatus.tsr

theorem MachineKept.refl (c : Csrs) : MachineKept c c :=
  ⟨rfl, rfl, rfl, rfl, rfl, rfl, rfl, rfl, rfl, rfl, rfl, rfl, fun _ => rfl, rfl, rfl, rfl, rfl, rfl, rfl⟩

theorem MachineKept.trans {c d e : Csrs} (h : MachineKept c d) (k : MachineKept d e) : MachineKept c e where
  medeleg := k.medeleg.trans h.medeleg
  mideleg := k.mideleg.trans h.mideleg
  mtvec := k.mtvec.trans h.mtvec
  mscratch := k.mscratch.trans h.mscratch
  mepc := k.mepc.trans h.mepc
  mcause := k.mcause.trans h.mcause
  mtval := k.mtval.trans h.mtval
  mcounteren := k.mcounteren.trans h.mcounteren
  mcycle := k.mcycle.trans h.mcycle
  mie := (h.mideleg ▸ k.mie).trans h.mie
  stip := k.stip.trans h.stip
  seip := k.seip.trans h.seip
  ssip hd := (k.ssip (h.mideleg ▸ hd)).trans (h.ssip hd)
  mstatusMie := k.mstatusMie.trans h.mstatusMie
  mstatusMpie := k.mstatusMpie.trans h.mstatusMpie
  mstatusMpp := k.mstatusMpp.trans h.mstatusMpp
  mstatusTvm := k.mstatusTvm.trans h.mstatusTvm
  mstatusTw := k.mstatusTw.trans h.mstatusTw
  mstatusTsr := k.mstatusTsr.trans h.mstatusTsr

/-- A write to sie changes delegated bits alone (R75). -/
theorem sie_undelegated (mie mideleg v : Word) :
    (mie &&& ~~~(mideleg &&& midelegMask) ||| v &&& (mideleg &&& midelegMask)) &&& ~~~mideleg = mie &&& ~~~mideleg := by
  apply BitVec.eq_of_getLsbD_eq
  intro i hi
  simp only [BitVec.getLsbD_and, BitVec.getLsbD_or, BitVec.getLsbD_not, hi]
  cases mideleg.getLsbD i <;> simp

/-- A write of a CSR that S-mode may access keeps M-mode's registers, MPRV and minstret among them. -/
theorem machineKept_writeCsr {n : Nat} {c : CsrName} (h : c.At n) (hn : n / 256 % 4 ≤ 1) (s : State) (v : Word) :
    MachineKept s.csr (s.writeCsr c v).csr ∧ (s.writeCsr c v).csr.minstret = s.csr.minstret ∧
      (s.writeCsr c v).csr.mstatus.mprv = s.csr.mstatus.mprv := by
  cases c with
  | fflags | frm | fcsr | sstatus | scounteren | sscratch | sepc | scause | stval =>
    exact ⟨{ MachineKept.refl _ with }, rfl, rfl⟩
  | sie => exact ⟨{ MachineKept.refl _ with mie := sie_undelegated .. }, rfl, rfl⟩
  | sip =>
    simp only [writeCsr]
    split
    · rename_i hd
      exact ⟨{ MachineKept.refl _ with ssip := fun hn => nomatch hd.symm.trans hn }, rfl, rfl⟩
    · exact ⟨.refl _, rfl, rfl⟩
  | stvec =>
    simp only [writeCsr]
    split
    · exact ⟨{ MachineKept.refl _ with }, rfl, rfl⟩
    · exact ⟨.refl _, rfl, rfl⟩
  | satp =>
    simp only [writeCsr, writeSatp]
    (repeat' split) <;> exact ⟨{ MachineKept.refl _ with }, rfl, rfl⟩
  | misa | mcountinhibit | mhpmevent | pmpcfg | pmpaddr | mhpmcounter | cycle | time | instret | hpmcounter | mvendorid
  | marchid | mimpid | mhartid | mconfigptr => exact ⟨.refl _, rfl, rfl⟩
  | _ =>
    simp only [CsrName.At] at h
    omega

/-- CSR instructions, MRET and SRET are the SYSTEM instructions whose rules name CSRs. -/
theorem namesCsrs {i : Instr} (h : isCsr i = true ∨ i = .mret ∨ i = .sret) :
    ¬(instrClass i ≠ .system ∨ i = .wfi ∨ ∃ rs1 rs2, i = .sfenceVma rs1 rs2) := by
  rcases h with h | rfl | rfl
  · cases i with
    | csrrw | csrrs | csrrc | csrrwi | csrrsi | csrrci => exact (·.elim (absurd rfl) (·.elim nofun nofun))
    | _ => exact nomatch h
  · exact (·.elim (absurd rfl) (·.elim nofun nofun))
  · exact (·.elim (absurd rfl) (·.elim nofun nofun))

/-! ## The obligations -/

/-- Settles O25: the effect of an ordinary instruction; the others' rules name the CSRs they change. -/
theorem registerFrame : Obligations.RegisterFrame := by
  intro i s t h ht
  cases retired_of_exec h ht with
  | ordinary e target =>
    refine ⟨e.x, e.f, e.cfg, e.lines, e.inputs, e.resv, fun _ => ⟨e.priv, ?_, fun hi => ?_⟩⟩
    · obtain ⟨fflags, fs, hc⟩ := e.csr
      rw [retireTo_csr, hc]
    · rw [retireTo_csr, e.fpState hi]
      exact ⟨rfl, rfl⟩
  | @writesCsr u hi e target _ _ c _ v =>
    obtain ⟨_, _, _, _, hw⟩ := (u.retireTo target).writeCsr_frame c v
    rw [hw]
    exact ⟨e.x, e.f, e.cfg, e.lines, e.inputs, e.resv, fun hn => absurd hn (namesCsrs (.inl hi))⟩
  | mret hi =>
    exact ⟨fun _ _ => rfl, fun _ _ => rfl, rfl, rfl, rfl, fun _ _ => rfl, fun hn => absurd hn (namesCsrs (.inr (.inl hi)))⟩
  | sret hi =>
    exact ⟨fun _ _ => rfl, fun _ _ => rfl, rfl, rfl, rfl, fun _ _ => rfl, fun hn => absurd hn (namesCsrs (.inr (.inr hi)))⟩

/-- What a retired U-mode instruction leaves. -/
theorem confined_user {i : Instr} {s t : State} (hp : s.priv = .U) (h : Retired i s t) :
    t.priv = .U ∧ t.lines = s.lines ∧ t.cfg = s.cfg ∧ ∃ fflags frm fs, t.csr = { s.csr with
      fflags := fflags, frm := frm, minstret := s.csr.minstret + 1#64, mstatus := { s.csr.mstatus with fs := fs } } := by
  cases h with
  | ordinary e target =>
    obtain ⟨fflags, fs, hc⟩ := e.csr
    exact ⟨e.priv.trans hp, e.lines, e.cfg, fflags, s.csr.frm, fs, by rw [retireTo_csr, hc]⟩
  | writesCsr _ e target ha v =>
    obtain ⟨hat, hmode⟩ := csrAccess_some ha
    obtain ⟨fflags, fs, hc⟩ := e.csr
    rw [hp] at hmode
    rcases hat.user (Nat.le_zero.mp hmode) with rfl | rfl | rfl | ignored
    · exact ⟨e.priv.trans hp, e.lines, e.cfg, _, s.csr.frm, 3#2, by rw [writeCsr, dirtyFp_csr, retireTo_csr, hc]⟩
    · exact ⟨e.priv.trans hp, e.lines, e.cfg, fflags, _, 3#2, by rw [writeCsr, dirtyFp_csr, retireTo_csr, hc]⟩
    · exact ⟨e.priv.trans hp, e.lines, e.cfg, _, _, 3#2, by rw [writeCsr, dirtyFp_csr, retireTo_csr, hc]⟩
    · rw [ignored]
      exact ⟨e.priv.trans hp, e.lines, e.cfg, fflags, s.csr.frm, fs, by rw [retireTo_csr, hc]⟩
  | mret _ hm => exact nomatch hp.symm.trans hm
  | sret _ hu => exact absurd hp hu

/-- An ordinary retirement keeps M-mode's registers and MPRV, and counts 1. -/
theorem machineKept_retireTo {i : Instr} {s t : State} (e : Effect i s t) (target : Word) :
    MachineKept s.csr (t.retireTo target).csr ∧ (t.retireTo target).csr.minstret = s.csr.minstret + 1#64 ∧
      (t.retireTo target).csr.mstatus.mprv = s.csr.mstatus.mprv := by
  obtain ⟨fflags, fs, hc⟩ := e.csr
  rw [retireTo_csr, hc]
  exact ⟨{ MachineKept.refl _ with }, rfl, rfl⟩

/-- What a retired S-mode instruction leaves. -/
theorem confined_supervisor {i : Instr} {s t : State} (hp : s.priv = .S) (h : Retired i s t) :
    t.priv ≠ .M ∧ MachineKept s.csr t.csr ∧ t.csr.minstret = s.csr.minstret + 1#64 ∧
      (i ≠ .sret → t.csr.mstatus.mprv = s.csr.mstatus.mprv) := by
  have stays {u : State} (hu : u.priv = s.priv) : u.priv ≠ .M := fun hm => nomatch (hu.trans hp).symm.trans hm
  cases h with
  | ordinary e target =>
    obtain ⟨kept, count, mprv⟩ := machineKept_retireTo e target
    exact ⟨stays e.priv, kept, count, fun _ => mprv⟩
  | @writesCsr u _ e target _ _ c ha v =>
    obtain ⟨kept, count, mprv⟩ := machineKept_retireTo e target
    obtain ⟨hat, hmode⟩ := csrAccess_some ha
    rw [hp] at hmode
    obtain ⟨kept', count', mprv'⟩ := machineKept_writeCsr hat hmode (u.retireTo target) v
    obtain ⟨_, _, _, _, hw⟩ := (u.retireTo target).writeCsr_frame c v
    refine ⟨stays ?_, kept.trans kept', count'.trans count, fun _ => mprv'.trans mprv⟩
    rw [hw]
    exact e.priv
  | mret _ hm => exact nomatch hp.symm.trans hm
  | sret hi _ =>
    refine ⟨?_, { MachineKept.refl _ with }, rfl, fun hn => absurd hi hn⟩
    show (if s.csr.mstatus.spp then Priv.S else Priv.U) ≠ .M
    split <;> nofun

/-- Settles O49: the ways to retire in U-mode and in S-mode, a CSR's address saying which modes may write it. -/
theorem lowerModesAreConfined : Obligations.LowerModesAreConfined := by
  refine ⟨fun i s t hp h ht => ?_, fun i s t hp h ht => ?_⟩
  · obtain ⟨priv, lines, cfg, fflags, frm, fs, hc⟩ := confined_user hp (retired_of_exec h ht)
    exact ⟨priv, lines, cfg, by rw [hc]⟩
  · obtain ⟨priv, k, count, mprv⟩ := confined_supervisor hp (retired_of_exec h ht)
    exact ⟨priv, k.medeleg, k.mideleg, k.mtvec, k.mscratch, k.mepc, k.mcause, k.mtval, k.mcounteren, k.mcycle, count, k.mie,
      k.stip, k.seip, k.ssip, k.mstatusMie, k.mstatusMpie, k.mstatusMpp, k.mstatusTvm, k.mstatusTw, k.mstatusTsr, mprv⟩

end Sys2Proof.Machine
end

section
/-! PROOFS. The instruction level neither reads nor changes the microarchitecture: each operation commutes with putting another one
in its place. -/
namespace Sys2Proof.Machine

/-- The state with another microarchitecture in place of the one it holds. -/
def State.setUarch (s : State) (u : Uarch) : State := { s with uarch := u }

/-- A part of an instruction with another microarchitecture in its state. -/
def Res.setUarch {α : Type} (r : Res α) (u : Uarch) : Res α :=
  match r with
  | .ok a t => .ok a (t.setUarch u)
  | .raise e v => .raise e v

/-- A sequence whose parts commute commutes. -/
theorem Res.bind_setUarch {α β : Type} {r : Res α} {u : Uarch} {k k' : α → State → Res β}
    (h : ∀ a t, k' a (t.setUarch u) = (k a t).setUarch u) : (r.setUarch u).bind k' = (r.bind k).setUarch u := by
  cases r with
  | ok a t => exact h a t
  | raise e v => rfl

namespace State

variable (s : State) (u : Uarch)

@[simp] theorem setUarch_cfg : (s.setUarch u).cfg = s.cfg := rfl
@[simp] theorem setUarch_pc : (s.setUarch u).pc = s.pc := rfl
@[simp] theorem setUarch_csr : (s.setUarch u).csr = s.csr := rfl
@[simp] theorem setUarch_resv : (s.setUarch u).resv = s.resv := rfl
@[simp] theorem setUarch_lineLag : (s.setUarch u).lineLag = s.lineLag := rfl
@[simp] theorem setUarch_fetchLog : (s.setUarch u).fetchLog = s.fetchLog := rfl
@[simp] theorem setUarch_walkLog : (s.setUarch u).walkLog = s.walkLog := rfl
@[simp] theorem setUarch_inputs : (s.setUarch u).inputs = s.inputs := rfl
@[simp] theorem setUarch_ended : (s.setUarch u).ended = s.ended := rfl
@[simp] theorem setUarch_draws : (s.setUarch u).draws = s.draws := rfl
@[simp] theorem setUarch_exact : (s.setUarch u).exact = s.exact := rfl

/-- Two states that hold the same microarchitecture and agree in all else are equal. -/
theorem eq_of_setUarch {s t : State} {u : Uarch} (h : t.setUarch u = s.setUarch u) (hu : t.uarch = s.uarch) : t = s :=
  calc t = (t.setUarch u).setUarch s.uarch := by rw [← hu]; rfl
    _ = s := by rw [h]; rfl

/-! ## Registers and traps -/

theorem writeX_setUarch (r : Reg) (v : Word) : (s.setUarch u).writeX r v = (s.writeX r v).setUarch u := by
  unfold writeX
  split <;> rfl

theorem accrue_setUarch (fl : FFlags) : (s.setUarch u).accrue fl = (s.accrue fl).setUarch u := by
  unfold accrue
  split <;> rfl

theorem trapTarget_setUarch (c : TrapCause) : (s.setUarch u).trapTarget c = s.trapTarget c := rfl

theorem enterTrap_setUarch (c : TrapCause) (epc tval : Word) :
    (s.setUarch u).enterTrap c epc tval = (s.enterTrap c epc tval).setUarch u := by
  unfold enterTrap
  rw [trapTarget_setUarch]
  split <;> rfl

theorem writeCsr_setUarch (c : CsrName) (v : Word) : (s.setUarch u).writeCsr c v = (s.writeCsr c v).setUarch u := by
  cases c with
  | satp | stvec | mtvec | sip =>
    simp only [writeCsr, writeSatp, apply_ite (setUarch · u)]
    rfl
  | _ => rfl

/-! ## The bus -/

theorem ramValue_setUarch (a n : Nat) : (s.setUarch u).ramValue a n = s.ramValue a n :=
  ramValue_congr fun _ _ => rfl

theorem deviceRead_setUarch (d : Device) (off n : Nat) :
    (s.setUarch u).deviceRead d off n = ((s.deviceRead d off n).1, (s.deviceRead d off n).2.setUarch u) := by
  cases d <;> rfl

theorem deviceWrite_setUarch (d : Device) (off n : Nat) (v : Word) :
    (s.setUarch u).deviceWrite d off n v = (s.deviceWrite d off n v).setUarch u := by
  cases d with
  | syscon =>
    simp only [deviceWrite, deviceEffect]
    (repeat' split) <;> rfl
  | _ => rfl

theorem busRead_setUarch (pa : Word) (n : Nat) :
    (s.setUarch u).busRead pa n = (s.busRead pa n).map fun r => (r.1, r.2.setUarch u) := by
  unfold busRead
  rw [setUarch_cfg, ramValue_setUarch]
  split
  · rfl
  · split <;> rfl
  · rw [deviceRead_setUarch]
    split <;> rfl

theorem busWrite_setUarch (pa : Word) (n : Nat) (v : Word) :
    (s.setUarch u).busWrite pa n v = (s.busWrite pa n v).map fun t => t.setUarch u := by
  unfold busWrite
  rw [setUarch_cfg]
  split
  · rfl
  · split <;> rfl
  · rw [deviceWrite_setUarch]
    split <;> rfl

/-! ## The walk and translation -/

theorem byteBefore_setUarch (a n : Nat) (log : List WalkEvent) (now : Byte) :
    (s.setUarch u).byteBefore a n log now = s.byteBefore a n log now := by
  induction n generalizing log now with
  | zero => cases log <;> rfl
  | succ n ih =>
    cases log with
    | nil => rfl
    | cons e log => cases e <;> exact ih ..

theorem ramBefore_setUarch (k a n : Nat) : (s.setUarch u).ramBefore k a n = s.ramBefore k a n := by
  induction n generalizing a with
  | zero => rfl
  | succ n ih =>
    unfold ramBefore
    rw [ih, byteBefore_setUarch]
    rfl

theorem readPte_setUarch (k : Nat) (pa : Word) :
    (s.setUarch u).readPte k pa = (s.readPte k pa).map fun r => (r.1, r.2.setUarch u) := by
  unfold readPte
  rw [setUarch_cfg, ramBefore_setUarch, busRead_setUarch]
  split <;> rfl

theorem permitted_setUarch (acc : Access) (p : Priv) (r w x b : Bool) :
    (s.setUarch u).permitted acc p r w x b = s.permitted acc p r w x b := rfl

theorem walkFrom_setUarch (k : Nat) (acc : Access) (p : Priv) (va a : Word) (i : Nat) :
    (s.setUarch u).walkFrom k acc p va a i =
      ((s.walkFrom k acc p va a i).1, (s.walkFrom k acc p va a i).2.setUarch u) := by
  induction i generalizing s a with
  | zero =>
    unfold walkFrom
    dsimp only
    rw [readPte_setUarch]
    rcases s.readPte k (a + ((vpnPart va 0).setWidth 64 <<< 3)) with _ | ⟨pte, t⟩
    · rfl
    · dsimp only [Option.map_some]
      rw [permitted_setUarch]
      (repeat' split) <;> rfl
  | succ i ih =>
    unfold walkFrom
    dsimp only
    rw [readPte_setUarch]
    rcases s.readPte k (a + ((vpnPart va (i + 1)).setWidth 64 <<< 3)) with _ | ⟨pte, t⟩
    · rfl
    · dsimp only [Option.map_some]
      rw [permitted_setUarch, ih]
      (repeat' split) <;> rfl

theorem updatePte_setUarch (pa v : Word) : (s.setUarch u).updatePte pa v = (s.updatePte pa v).map fun t => t.setUarch u := by
  unfold updatePte
  rw [busWrite_setUarch]
  cases s.busWrite pa 8 v <;> rfl

theorem setTlb_setUarch (acc : Access) (l : List TlbEntry) : (s.setUarch u).setTlb acc l = (s.setTlb acc l).setUarch u := by
  cases acc <;> rfl

theorem fill_setUarch (acc : Access) (va : Word) (e : TlbEntry) :
    (s.setUarch u).fill acc va e = (s.fill acc va e).setUarch u := by
  cases acc <;> rfl

theorem walk_setUarch (acc : Access) (p : Priv) (va : Word) :
    (s.setUarch u).walk acc p va = (s.walk acc p va).setUarch u := by
  unfold walk
  rw [walkFrom_setUarch, setUarch_csr]
  rcases s.walkFrom 0 acc p va ((satpPpn s.csr.satp).setWidth 64 <<< 12) 2 with ⟨w, t⟩
  cases w with
  | leaf pteAddr pte level =>
    simp only [fill_setUarch, updatePte_setUarch, setUarch_csr]
    split
    · rfl
    · cases t.updatePte pteAddr (markedPte acc pte) with
      | none => rfl
      | some t' => exact congrArg (Res.ok _) (fill_setUarch ..)
  | pageFault | accessFault => rfl

theorem earlierLeaf_setUarch (k : Nat) (va root : Word) :
    (s.setUarch u).earlierLeaf k va root = ((s.earlierLeaf k va root).1, (s.earlierLeaf k va root).2.setUarch u) := by
  unfold earlierLeaf
  simp only [walkFrom_setUarch]
  rcases s.walkFrom k .fetch .S va root 2 with ⟨w, t⟩
  cases w <;> rfl

/-- A PTE is as it was found, whatever microarchitecture the state holds: a read leaves it alone. -/
theorem readPte_setUarch_iff (pa pte : Word) :
    (s.setUarch u).readPte 0 pa = some (pte, s.setUarch u) ↔ s.readPte 0 pa = some (pte, s) := by
  rw [readPte_setUarch]
  refine ⟨fun h => ?_, fun h => by rw [h]; rfl⟩
  obtain ⟨⟨pte', t⟩, hr, he⟩ := Option.map_eq_some_iff.mp h
  obtain ⟨rfl, ht⟩ := Prod.mk.inj he
  dsimp only at ht ⊢
  rw [hr, eq_of_setUarch ht (readPte_some hr).1.uarch]

/-- The A bit is set in an unchanged PTE, whatever microarchitecture the state holds. -/
theorem marked_setUarch (pa pte marked : Word) :
    (if (s.setUarch u).readPte 0 pa = some (pte, s.setUarch u) then ((s.setUarch u).updatePte pa marked).getD (s.setUarch u)
      else s.setUarch u) =
    (if s.readPte 0 pa = some (pte, s) then (s.updatePte pa marked).getD s else s).setUarch u := by
  simp only [readPte_setUarch_iff, updatePte_setUarch]
  split
  · cases s.updatePte pa marked <;> rfl
  · rfl

theorem stillInFlight_setUarch (k : Nat) : (s.setUarch u).stillInFlight k = s.stillInFlight k := rfl

theorem earlierWalk_setUarch (k : Nat) (p : Priv) (va : Word) :
    (s.setUarch u).earlierWalk k p va = (s.earlierWalk k p va).map fun r => r.setUarch u := by
  unfold earlierWalk
  dsimp only
  rw [earlierLeaf_setUarch, setUarch_csr, setUarch_walkLog]
  split
  · rfl
  · rcases s.earlierLeaf k va ((satpPpn (satpBefore k s.walkLog s.csr.satp)).setWidth 64 <<< 12) with ⟨w, t⟩
    cases w with
    | leaf pteAddr pte level =>
      dsimp only
      rw [marked_setUarch, fill_setUarch, permitted_setUarch]
      (repeat' split) <;> rfl
    | pageFault | accessFault =>
      dsimp only
      rw [stillInFlight_setUarch]
      split <;> rfl

theorem miss_setUarch (acc : Access) (p : Priv) (va : Word) :
    (s.setUarch u).miss acc p va = (s.miss acc p va).setUarch u := by
  unfold miss
  rw [setUarch_exact, setUarch_walkLog]
  split
  · rw [show (s.setUarch u).useDraw = s.useDraw.setUarch u from rfl, earlierWalk_setUarch, walk_setUarch, setUarch_draws]
    generalize s.useDraw.earlierWalk _ p va = r
    cases r <;> rfl
  · exact walk_setUarch ..

theorem entries_setUarch (acc : Access) (va : Word) : (s.setUarch u).entries acc va = s.entries acc va := by
  cases acc <;> rfl

theorem useDraw_setUarch : (s.setUarch u).useDraw = s.useDraw.setUarch u := rfl

theorem effPriv_setUarch (acc : Access) : (s.setUarch u).effPriv acc = s.effPriv acc := rfl

theorem translate_setUarch (acc : Access) (va : Word) :
    (s.setUarch u).translate acc va = (s.translate acc va).setUarch u := by
  unfold translate
  dsimp only
  rw [entries_setUarch, setTlb_setUarch, useDraw_setUarch, effPriv_setUarch, setUarch_csr]
  split
  · rfl
  · split
    · rfl
    · cases (s.entries acc va).find? fun e => e.hits va (satpAsid s.csr.satp) with
      | none => exact miss_setUarch ..
      | some e =>
        dsimp only
        rw [permitted_setUarch, miss_setUarch, setTlb_setUarch]
        (repeat' split) <;> rfl

/-! ## Data accesses -/

theorem memRead_setUarch (va : Word) (n : Nat) : (s.setUarch u).memRead va n = (s.memRead va n).setUarch u := by
  unfold memRead
  split
  · rfl
  · rw [translate_setUarch]
    refine Res.bind_setUarch fun pa t => ?_
    rw [busRead_setUarch]
    cases t.busRead pa n <;> rfl

theorem memWrite_setUarch (va : Word) (n : Nat) (v : Word) :
    (s.setUarch u).memWrite va n v = (s.memWrite va n v).setUarch u := by
  unfold memWrite
  split
  · rfl
  · rw [translate_setUarch]
    refine Res.bind_setUarch fun pa t => ?_
    rw [busWrite_setUarch]
    cases t.busWrite pa n v <;> rfl

theorem memAmo_setUarch (va : Word) (n : Nat) (f : Word → Word) :
    (s.setUarch u).memAmo va n f = (s.memAmo va n f).setUarch u := by
  unfold memAmo
  split
  · rfl
  · rw [translate_setUarch]
    refine Res.bind_setUarch fun pa t => ?_
    rw [busRead_setUarch]
    rcases t.busRead pa n with _ | ⟨old, t'⟩
    · rfl
    · dsimp only [Option.map_some]
      rw [busWrite_setUarch]
      cases t'.busWrite pa n (f old) <;> rfl

theorem granule_setUarch (pa : Word) : (s.setUarch u).granule pa = s.granule pa := rfl

theorem scAccess_setUarch (a : Word) (n : Nat) (v : Word) :
    (s.setUarch u).scAccess a n v = (s.scAccess a n v).setUarch u := by
  unfold scAccess
  split
  · rfl
  · rw [translate_setUarch]
    refine Res.bind_setUarch fun pa t => ?_
    rw [setUarch_resv, granule_setUarch, busWrite_setUarch]
    split
    · cases t.busWrite pa n v <;> rfl
    · rfl

/-! ## The shapes of instructions -/

theorem raiseExc_setUarch (e : Exc) (tval : Word) : (s.setUarch u).raiseExc e tval = withUarch u (s.raiseExc e tval) :=
  congrArg Host.Outcome.next (enterTrap_setUarch ..)

theorem next_writeX_setUarch (rd : Reg) (v target : Word) :
    (.next (((s.setUarch u).writeX rd v).retireTo target) : Result) = withUarch u (.next ((s.writeX rd v).retireTo target)) := by
  rw [writeX_setUarch]
  rfl

theorem deliver_setUarch {r r' : Res Unit} (h : r' = r.setUarch u) : r'.deliver (s.setUarch u) = withUarch u (r.deliver s) := by
  subst h
  cases r with
  | ok a t => rfl
  | raise e v => exact raiseExc_setUarch ..

theorem result_setUarch (rd : Reg) (v size : Word) : (s.setUarch u).result rd v size = withUarch u (s.result rd v size) :=
  next_writeX_setUarch ..

theorem jumpAndLink_setUarch (rd : Reg) (target size : Word) :
    (s.setUarch u).jumpAndLink rd target size = withUarch u (s.jumpAndLink rd target size) :=
  next_writeX_setUarch ..

theorem illegalUnless_setUarch {c : Prop} [Decidable c] {r r' : Result} (bits : Word) (h : r' = withUarch u r) :
    (if c then r' else (s.setUarch u).illegal bits) = withUarch u (if c then r else s.illegal bits) := by
  rw [h, apply_ite (withUarch u)]
  congr 1
  exact raiseExc_setUarch ..

theorem loadX_setUarch (rd : Reg) (ea : Word) (n : Nat) (extend : Word → Word) (size : Word) :
    (s.setUarch u).loadX rd ea n extend size = withUarch u (s.loadX rd ea n extend size) := by
  unfold loadX
  rw [memRead_setUarch]
  exact deliver_setUarch _ _ (Res.bind_setUarch fun a t => congrArg (Res.ok ()) (by rw [writeX_setUarch]; rfl))

theorem loadF_setUarch (rd : Reg) (ea : Word) (n : Nat) (make : Word → Word) (size : Word) :
    (s.setUarch u).loadF rd ea n make size = withUarch u (s.loadF rd ea n make size) := by
  unfold loadF
  rw [memRead_setUarch]
  exact deliver_setUarch _ _ (Res.bind_setUarch fun a t => rfl)

theorem store_setUarch (ea : Word) (n : Nat) (v size : Word) :
    (s.setUarch u).store ea n v size = withUarch u (s.store ea n v size) := by
  unfold store
  rw [memWrite_setUarch]
  exact deliver_setUarch _ _ (Res.bind_setUarch fun a t => rfl)

theorem loadReserved_setUarch (rd : Reg) (a : Word) (n : Nat) (extend : Word → Word) :
    (s.setUarch u).loadReserved rd a n extend = withUarch u (s.loadReserved rd a n extend) := by
  unfold loadReserved
  rw [memRead_setUarch]
  exact deliver_setUarch _ _ (Res.bind_setUarch fun a t => congrArg (Res.ok ()) (by rw [writeX_setUarch]; rfl))

theorem storeConditional_setUarch (rd : Reg) (a : Word) (n : Nat) (v : Word) :
    (s.setUarch u).storeConditional rd a n v = withUarch u (s.storeConditional rd a n v) := by
  unfold storeConditional
  rw [scAccess_setUarch]
  exact deliver_setUarch _ _ (Res.bind_setUarch fun a t => congrArg (Res.ok ()) (by rw [writeX_setUarch]; rfl))

theorem amoW_setUarch (rd : Reg) (a src : Word) (f : BitVec 32 → BitVec 32 → BitVec 32) :
    (s.setUarch u).amoW rd a src f = withUarch u (s.amoW rd a src f) := by
  unfold amoW
  rw [memAmo_setUarch]
  exact deliver_setUarch _ _ (Res.bind_setUarch fun a t => congrArg (Res.ok ()) (by rw [writeX_setUarch]; rfl))

theorem amoD_setUarch (rd : Reg) (a src : Word) (f : Word → Word → Word) :
    (s.setUarch u).amoD rd a src f = withUarch u (s.amoD rd a src f) := by
  unfold amoD
  rw [memAmo_setUarch]
  exact deliver_setUarch _ _ (Res.bind_setUarch fun a t => congrArg (Res.ok ()) (by rw [writeX_setUarch]; rfl))

theorem fpGuard_setUarch (bits : Word) {r r' : Result} (h : r' = withUarch u r) :
    (s.setUarch u).fpGuard bits r' = withUarch u (s.fpGuard bits r) :=
  illegalUnless_setUarch _ _ _ h

theorem fpRounded_setUarch (bits : Word) (rm : BitVec 3) {k k' : RoundingMode → Result} (h : ∀ m, k' m = withUarch u (k m)) :
    (s.setUarch u).fpRounded bits rm k' = withUarch u (s.fpRounded bits rm k) := by
  refine fpGuard_setUarch _ _ _ ?_
  rw [show (s.setUarch u).roundingMode rm = s.roundingMode rm from rfl]
  cases s.roundingMode rm with
  | some m => exact h m
  | none => exact raiseExc_setUarch ..

theorem resultS_setUarch (rd : Reg) (r : BitVec 32) (fl : FFlags) :
    (s.setUarch u).resultS rd r fl = withUarch u (s.resultS rd r fl) := by
  unfold resultS
  rw [show (s.setUarch u).writeF rd (boxS r) = (s.writeF rd (boxS r)).setUarch u from rfl, accrue_setUarch]
  rfl

theorem resultD_setUarch (rd : Reg) (r : BitVec 64) (fl : FFlags) :
    (s.setUarch u).resultD rd r fl = withUarch u (s.resultD rd r fl) := by
  unfold resultD
  rw [show (s.setUarch u).writeF rd r = (s.writeF rd r).setUarch u from rfl, accrue_setUarch]
  rfl

theorem resultX_setUarch (rd : Reg) (v : Word) (fl : FFlags) :
    (s.setUarch u).resultX rd v fl = withUarch u (s.resultX rd v fl) := by
  unfold resultX
  rw [writeX_setUarch, accrue_setUarch]
  rfl

theorem csrAccess_setUarch (a : BitVec 12) (writes : Bool) : (s.setUarch u).csrAccess a writes = s.csrAccess a writes := rfl

theorem csrOp_setUarch (bits : Word) (rd : Reg) (a : BitVec 12) (writes : Bool) (new : Word → Word) :
    (s.setUarch u).csrOp bits rd a writes new = withUarch u (s.csrOp bits rd a writes new) := by
  unfold csrOp
  rw [csrAccess_setUarch]
  cases s.csrAccess a writes with
  | none => exact raiseExc_setUarch ..
  | some c =>
    dsimp only
    rw [writeX_setUarch]
    cases writes with
    | false => rfl
    | true =>
      rw [if_pos rfl, if_pos rfl]
      exact congrArg Host.Outcome.next
        (writeCsr_setUarch ((s.writeX rd (s.readCsr c)).retireTo (s.pc + 4#64)) u c (new (s.csrBase c)))

end State

open State

/-! ## Instructions -/

/-- Every instruction commutes: it has one of the shapes that do, and its operands are architectural. -/
theorem exec_setUarch (i : Instr) (s : State) (u : Uarch) : exec i (s.setUarch u) = withUarch u (exec i s) := by
  unfold exec
  cases i with
  | lui | auipc | addi | slti | sltiu | xori | ori | andi | slli | srli | srai | add | sub | sll | slt | sltu | xor
  | srl | sra | or | and | addiw | slliw | srliw | sraiw | addw | subw | sllw | srlw | sraw | mul | mulh | mulhsu
  | mulhu | div | divu | rem | remu | mulw | divw | divuw | remw | remuw | cAddi4spn | cAddi | cAddiw | cLi
  | cAddi16sp | cLui | cSrli | cSrai | cAndi | cSub | cXor | cOr | cAnd | cSubw | cAddw | cSlli | cMv | cAdd =>
    exact result_setUarch ..
  | jal | cJ | jalr | cJr | cJalr =>
    exact jumpAndLink_setUarch ..
  | beq | bne | blt | bge | bltu | bgeu | cBeqz | cBnez | fence | cNop | fenceI =>
    rfl
  | lb | lh | lw | ld | lbu | lhu | lwu | cLw | cLd | cLwsp | cLdsp =>
    exact loadX_setUarch ..
  | sb | sh | sw | sd | cSw | cSd | cSwsp | cSdsp =>
    exact store_setUarch ..
  | flw | fld | cFld | cFldsp =>
    exact fpGuard_setUarch _ _ _ (loadF_setUarch ..)
  | fsw | fsd | cFsd | cFsdsp =>
    exact fpGuard_setUarch _ _ _ (store_setUarch ..)
  | lrW | lrD =>
    exact loadReserved_setUarch ..
  | scW | scD =>
    exact storeConditional_setUarch ..
  | amoswapW | amoaddW | amoxorW | amoandW | amoorW | amominW | amomaxW | amominuW | amomaxuW =>
    exact amoW_setUarch ..
  | amoswapD | amoaddD | amoxorD | amoandD | amoorD | amominD | amomaxD | amominuD | amomaxuD =>
    exact amoD_setUarch ..
  | fmaddS | fmsubS | fnmsubS | fnmaddS | faddS | fsubS | fmulS | fdivS | fsqrtS | fcvtSW | fcvtSWu | fcvtSL
  | fcvtSLu | fcvtSD =>
    exact fpRounded_setUarch _ _ _ _ fun _ => resultS_setUarch ..
  | fmaddD | fmsubD | fnmsubD | fnmaddD | faddD | fsubD | fmulD | fdivD | fsqrtD | fcvtDW | fcvtDWu | fcvtDL
  | fcvtDLu | fcvtDS =>
    exact fpRounded_setUarch _ _ _ _ fun _ => resultD_setUarch ..
  | fcvtWS | fcvtWuS | fcvtLS | fcvtLuS | fcvtWD | fcvtWuD | fcvtLD | fcvtLuD =>
    exact fpRounded_setUarch _ _ _ _ fun _ => resultX_setUarch ..
  | fsgnjS | fsgnjnS | fsgnjxS | fminS | fmaxS | fmvWX =>
    exact fpGuard_setUarch _ _ _ (resultS_setUarch ..)
  | fsgnjD | fsgnjnD | fsgnjxD | fminD | fmaxD | fmvDX =>
    exact fpGuard_setUarch _ _ _ (resultD_setUarch ..)
  | fmvXW | feqS | fltS | fleS | fclassS | fmvXD | feqD | fltD | fleD | fclassD =>
    exact fpGuard_setUarch _ _ _ (resultX_setUarch ..)
  | ecall | ebreak | cEbreak =>
    exact raiseExc_setUarch ..
  | mret | sret | wfi | sfenceVma =>
    exact illegalUnless_setUarch _ _ _ rfl
  | csrrw | csrrs | csrrc | csrrwi | csrrsi | csrrci =>
    exact csrOp_setUarch ..

/-! ## Steps -/

namespace State

variable (s : State) (u : Uarch)

theorem dmaWrite_setUarch (l : List Host.Cell) : (s.setUarch u).dmaWrite l = (s.dmaWrite l).setUarch u := by
  induction l generalizing s with
  | nil => rfl
  | cons c rest ih =>
    unfold dmaWrite
    rw [← ih, apply_ite (setUarch · u)]
    rfl

theorem environment_setUarch : (s.setUarch u).environment = s.environment.setUarch u := by
  unfold environment
  rw [setUarch_inputs]
  cases s.inputs with
  | nil => rfl
  | cons i rest =>
    dsimp only
    rw [← dmaWrite_setUarch]
    rfl

theorem noteLines_setUarch (before : Lines) : (s.setUarch u).noteLines before = (s.noteLines before).setUarch u := rfl

theorem ageLines_setUarch (before : Lines) : (s.setUarch u).ageLines before = (s.ageLines before).setUarch u := rfl

theorem latchLines_setUarch : (s.setUarch u).latchLines = s.latchLines.setUarch u := by
  unfold latchLines
  rw [setUarch_lineLag, setUarch_draws]
  (repeat' split) <;> rfl

theorem tick_setUarch : (s.setUarch u).tick = s.tick.setUarch u := by
  unfold tick
  rw [show (s.setUarch u).advance = s.advance.setUarch u from rfl, environment_setUarch,
    ageLines_setUarch, latchLines_setUarch]
  rfl

theorem endStep_setUarch : (s.setUarch u).endStep = s.endStep.setUarch u := by
  unfold endStep
  rw [show ((s.setUarch u).advanceBy (s.setUarch u).lateCycles).useDraw = (s.advanceBy s.lateCycles).useDraw.setUarch u from rfl,
    environment_setUarch, noteLines_setUarch, latchLines_setUarch]
  rfl

theorem fetchBus_setUarch (pa : Word) : (s.setUarch u).fetchBus pa = (s.fetchBus pa).map fun r => (r.1, r.2.setUarch u) := by
  unfold fetchBus
  rw [busRead_setUarch, setUarch_cfg, setUarch_exact, setUarch_fetchLog]
  split
  · split <;> rfl
  · cases s.busRead pa 2 <;> rfl

theorem fetch16_setUarch (va : Word) :
    (s.setUarch u).fetch16 va = ((s.fetch16 va).1, (s.fetch16 va).2.setUarch u) := by
  unfold fetch16
  rw [translate_setUarch]
  cases s.translate .fetch va with
  | raise e tval => rfl
  | ok pa t =>
    dsimp only [Res.setUarch]
    rw [fetchBus_setUarch]
    cases t.fetchBus pa <;> rfl

theorem fetchInstr_setUarch : (s.setUarch u).fetchInstr = (s.fetchInstr.1, s.fetchInstr.2.setUarch u) := by
  unfold fetchInstr
  rw [setUarch_pc, fetch16_setUarch]
  rcases s.fetch16 s.pc with ⟨_ | lo, t⟩
  · rfl
  · dsimp only
    split
    · rw [fetch16_setUarch]
      rcases t.fetch16 (s.pc + 2#64) with ⟨_ | hi, t'⟩ <;> rfl
    · rfl

theorem execCode_setUarch (c : Code) : (s.setUarch u).execCode c = withUarch u (s.execCode c) := by
  unfold execCode
  cases decodeCode c with
  | error e => exact raiseExc_setUarch ..
  | ok i => exact exec_setUarch ..

theorem runInstr_setUarch : (s.setUarch u).runInstr = withUarch u s.runInstr := by
  unfold runInstr
  rw [fetchInstr_setUarch]
  rcases s.fetchInstr with ⟨f | c, t⟩
  · exact raiseExc_setUarch ..
  · exact execCode_setUarch ..

theorem settle_withUarch (r : Result) : settle (withUarch u r) = withUarch u (settle r) := by
  cases r with
  | next t => exact congrArg Host.Outcome.next (endStep_setUarch ..)
  | fault f | refused f => rfl

end State

theorem step_setUarch (s : State) (u : Uarch) : step (s.setUarch u) = withUarch u (step s) := by
  unfold step
  rw [setUarch_ended, tick_setUarch, show (s.setUarch u).stillWaiting = s.stillWaiting from rfl,
    show (s.setUarch u).interruptNow = s.interruptNow from rfl]
  cases s.ended with
  | some how => rfl
  | none =>
    dsimp only
    split
    · rfl
    · cases s.interruptNow with
      | some i => exact congrArg Host.Outcome.next (enterTrap_setUarch { s.tick with waiting := false } ..)
      | none => exact (congrArg settle (runInstr_setUarch { s.tick with waiting := false } u)).trans (settle_withUarch ..)

/-- Settles O59: each operation of an instruction, and of a step around it, commutes with putting another microarchitecture in
place. -/
theorem microarchitectureIsInvisible : Obligations.MicroarchitectureIsInvisible := ⟨exec_setUarch, step_setUarch⟩

end Sys2Proof.Machine
end

section
/-! PROOFS. The clocks, the CLINT's registers and the lines. -/
namespace Sys2Proof.Machine

/-! ## Bytes of a CLINT register (R850) -/

/-- Put the low n bytes of a value in place of bytes k to k + n - 1 of a word, byte by byte, as a CLINT write does. -/
def setBytes (w : Word) (k : Nat) : Nat → Word → Word
  | 0, _ => w
  | n + 1, v => setBytes (setByte w k (v.extractLsb' 0 8)) (k + 1) n (v >>> 8)

theorem getLsbD_setByte (w : Word) {k : Nat} (hk : k < 8) (b : Byte) (j : Nat) :
    (setByte w k b).getLsbD j = if 8 * k ≤ j ∧ j < 8 * k + 8 then b.getLsbD (j - 8 * k) else w.getLsbD j := by
  have mask : (0xFF#64).getLsbD (j - 8 * k) = decide (j - 8 * k < 8) := by
    rw [show 0xFF#64 = BitVec.ofNat 64 (2 ^ 8 - 1) from rfl, BitVec.getLsbD_ofNat, Nat.testBit_two_pow_sub_one]
    by_cases h : j - 8 * k < 8 <;> simp [h]
    omega
  unfold setByte
  rw [BitVec.getLsbD_or, BitVec.getLsbD_and, BitVec.getLsbD_not, BitVec.getLsbD_shiftLeft, BitVec.getLsbD_shiftLeft,
    BitVec.getLsbD_setWidth, mask]
  by_cases hj : j < 64
  · by_cases below : j < 8 * k
    · simp [below, hj, show ¬ 8 * k ≤ j by omega]
    · by_cases above : j < 8 * k + 8
      · simp [below, hj, above, show 8 * k ≤ j by omega, show j - 8 * k < 8 by omega, show j - 8 * k < 64 by omega]
      · simp [hj, above, show ¬ j - 8 * k < 8 by omega, BitVec.getLsbD_of_ge b (j - 8 * k) (by omega)]
  · simp [hj, show ¬ j < 8 * k + 8 by omega, BitVec.getLsbD_of_ge w j (by omega)]

theorem getLsbD_setBytes (w : Word) (k n : Nat) (v : Word) (h : k + n ≤ 8) (j : Nat) :
    (setBytes w k n v).getLsbD j = if 8 * k ≤ j ∧ j < 8 * (k + n) then v.getLsbD (j - 8 * k) else w.getLsbD j := by
  induction n generalizing w k v with
  | zero => rw [if_neg (by omega)]; rfl
  | succ n ih =>
    unfold setBytes
    rw [ih _ _ _ (by omega), getLsbD_setByte _ (by omega)]
    by_cases later : 8 * (k + 1) ≤ j ∧ j < 8 * (k + 1 + n)
    · rw [if_pos later, if_pos (by omega), BitVec.getLsbD_ushiftRight]
      congr 1
      omega
    · rw [if_neg later]
      by_cases here : 8 * k ≤ j ∧ j < 8 * k + 8
      · rw [if_pos here, if_pos (by omega)]
        simp [show j - 8 * k < 8 by omega]
      · rw [if_neg here, if_neg (by omega)]

/-- Eight bytes replace the word. -/
theorem setBytes_all (w v : Word) : setBytes w 0 8 v = v :=
  BitVec.eq_of_getLsbD_eq fun j hj => by
    rw [getLsbD_setBytes _ _ _ _ (by omega), if_pos (by omega)]
    rfl

namespace Clint

theorem write_mtimecmp (c : Clint) (k n : Nat) (v : Word) (h : k + n ≤ 8) :
    c.write (0x4000 + k) n v = { c with mtimecmp := setBytes c.mtimecmp k n v } := by
  induction n generalizing c k v with
  | zero => rfl
  | succ n ih =>
    have byte (b : Byte) : c.writeByte (0x4000 + k) b = { c with mtimecmp := setByte c.mtimecmp k b } := by
      simp [writeByte, show 0x4000 + k < 0x4008 by omega]
    unfold write
    rw [byte, Nat.add_assoc, ih _ _ _ (by omega)]
    rfl

theorem write_mtime (c : Clint) (k n : Nat) (v : Word) (h : k + n ≤ 8) :
    c.write (0xBFF8 + k) n v = { c with mtime := setBytes c.mtime k n v } := by
  induction n generalizing c k v with
  | zero => rfl
  | succ n ih =>
    have byte (b : Byte) : c.writeByte (0xBFF8 + k) b = { c with mtime := setByte c.mtime k b } := by
      simp [writeByte, show 0xBFF8 + k < 0xC000 by omega, show ¬ 0xBFF8 + k < 0x4008 by omega]
    unfold write
    rw [byte, Nat.add_assoc, ih _ _ _ (by omega)]
    rfl

/-- Where the bytes are those of a register, a read has the register's bits. -/
theorem getLsbD_read (c : Clint) (r free : Word) (off k n : Nat) (h : k + n ≤ 8)
    (bytes : ∀ i < n, ∀ free, c.byte free (off + i) = r.extractLsb' (8 * (k + i)) 8) (j : Nat) :
    (c.read free off n).getLsbD j = (decide (j < 8 * n) && r.getLsbD (8 * k + j)) := by
  induction n generalizing free off k j with
  | zero => simp [read]
  | succ n ih =>
    have rest := ih (free >>> 8) (off + 1) (k + 1) (by omega)
      (fun i hi free => by rw [Nat.add_assoc, Nat.add_comm 1 i, bytes (i + 1) (by omega), Nat.add_assoc, Nat.add_comm 1 i])
    unfold read
    rw [BitVec.getLsbD_or, BitVec.getLsbD_shiftLeft, rest, BitVec.getLsbD_setWidth, ← Nat.add_zero off,
      bytes 0 (by omega), BitVec.getLsbD_extractLsb']
    by_cases h8 : j < 8
    · simp [h8, show j < 64 by omega, show j < 8 * (n + 1) by omega]
    · have at8 : 8 * (k + 1) + (j - 8) = 8 * k + j := by omega
      by_cases hj : j < 8 * (n + 1)
      · simp [h8, hj, at8, show j < 64 by omega, show j - 8 < 8 * n by omega]
      · simp [h8, hj, show ¬ j - 8 < 8 * n by omega]

/-- Eight bytes of a register are the register. -/
theorem read_register (c : Clint) (r free : Word) (off : Nat)
    (bytes : ∀ i < 8, ∀ free, c.byte free (off + i) = r.extractLsb' (8 * i) 8) : c.read free off 8 = r :=
  BitVec.eq_of_getLsbD_eq fun j hj => by
    rw [getLsbD_read c r free off 0 8 (by omega) (fun i hi free => by rw [bytes i hi, Nat.zero_add])]
    simp [hj]

theorem read_mtimecmp (c : Clint) (free : Word) : c.read free 0x4000 8 = c.mtimecmp :=
  read_register c _ free _ fun i hi free => by simp [byte, show 0x4000 + i < 0x4008 by omega, show ¬ 0x4000 + i < 4 by omega]

theorem read_mtime (c : Clint) (free : Word) : c.read free 0xBFF8 8 = c.mtime :=
  read_register c _ free _ fun i hi free => by
    simp [byte, show 0xBFF8 + i < 0xC000 by omega, show ¬ 0xBFF8 + i < 0x4008 by omega, show ¬ 0xBFF8 + i < 4 by omega]

theorem write_msip (c : Clint) (v : Word) : c.write 0 4 v = { c with msip := v.getLsbD 0 } := by
  simp [write, writeByte]

theorem read_msip (c : Clint) (free : Word) : c.read free 0 4 = if c.msip then 1#64 else 0#64 := by
  cases h : c.msip <;> simp [read, byte, h]

end Clint

namespace State

/-! ## Time -/

@[simp] theorem environment_x (s : State) : s.environment.x = s.x := (congrArg State.x (environment_frame s) :)
@[simp] theorem environment_f (s : State) : s.environment.f = s.f := (congrArg State.f (environment_frame s) :)
@[simp] theorem environment_pc (s : State) : s.environment.pc = s.pc := (congrArg State.pc (environment_frame s) :)
@[simp] theorem environment_priv (s : State) : s.environment.priv = s.priv := (congrArg State.priv (environment_frame s) :)
@[simp] theorem environment_csr (s : State) : s.environment.csr = s.csr := (congrArg State.csr (environment_frame s) :)
@[simp] theorem environment_resv (s : State) : s.environment.resv = s.resv := (congrArg State.resv (environment_frame s) :)
@[simp] theorem environment_lines (s : State) : s.environment.lines = s.lines :=
  (congrArg State.lines (environment_frame s) :)
@[simp] theorem environment_lineLag (s : State) : s.environment.lineLag = s.lineLag :=
  (congrArg State.lineLag (environment_frame s) :)
@[simp] theorem environment_clint (s : State) : s.environment.clint = s.clint := (congrArg State.clint (environment_frame s) :)
@[simp] theorem environment_atBoundary (s : State) : s.environment.atBoundary = s.atBoundary :=
  (congrArg State.atBoundary (environment_frame s) :)

theorem tick_drivenLines (s : State) : s.tick.drivenLines = s.advance.environment.drivenLines := latchLines_driven _

theorem endStep_drivenLines (s : State) :
    s.endStep.drivenLines = (s.advanceBy s.lateCycles).useDraw.environment.drivenLines := latchLines_driven _

/-! ## The latch -/

theorem latchLines_of_noLag {s : State} (h : s.lineLag = 0) : s.latchLines.lines = s.drivenLines := by
  rw [latchLines, if_pos h]

theorem tick_lines (s : State) : s.tick.lines = s.lines ∨ s.tick.lines = s.tick.drivenLines := by
  have latch := latchLines_lines (s.advance.environment.ageLines s.drivenLines)
  rw [ageLines_lines, environment_lines] at latch
  rwa [tick_drivenLines]

theorem endStep_lines (s : State) : s.endStep.lines = s.lines ∨ s.endStep.lines = s.endStep.drivenLines := by
  have latch := latchLines_lines ((s.advanceBy s.lateCycles).useDraw.environment.noteLines s.drivenLines)
  rw [noteLines_lines, environment_lines] at latch
  rwa [endStep_drivenLines]

/-- A tick that drives the lines as before leaves no change behind that was at most one tick old. -/
theorem tick_lines_of_same {s : State} (lag : s.lineLag ≤ 1) (same : s.tick.drivenLines = s.drivenLines) :
    s.tick.lines = s.drivenLines := by
  rw [← same]
  refine (latchLines_of_noLag ?_).trans (tick_drivenLines s).symm
  rw [ageLines_lineLag, if_pos ((tick_drivenLines s).symm.trans same), environment_lineLag]
  exact Nat.sub_eq_zero_of_le lag

theorem endStep_lines_of_same {s : State} (lag : s.lineLag = 0) (same : s.endStep.drivenLines = s.drivenLines) :
    s.endStep.lines = s.drivenLines := by
  rw [← same]
  refine (latchLines_of_noLag ?_).trans (endStep_drivenLines s).symm
  rw [noteLines_lineLag, if_pos ((endStep_drivenLines s).symm.trans same), environment_lineLag]
  exact lag

end State

open State

/-- Settles O51: a tick and the end of a step are the clocks, the environment and the latch; the CLINT's registers are read and
written byte by byte. -/
theorem clocksAndClint : Obligations.ClocksAndClint := by
  refine ⟨fun s => ?_, fun c v free s => ⟨?_, ?_, c.write_msip v, c.read_mtimecmp free, c.read_mtime free, c.read_msip free, ?_,
    latchLines_of_noLag, tick_lines s, tick_lines_of_same, endStep_lines s, endStep_lines_of_same⟩⟩
  · simp [tick, endStep, cyclesNow, lateCycles, BitVec.ofNat_add]
  · exact (c.write_mtimecmp 0 8 v (by decide)).trans (by rw [setBytes_all])
  · exact (c.write_mtime 0 8 v (by decide)).trans (by rw [setBytes_all])
  · rfl

end Sys2Proof.Machine
end

section
/-! PROOFS. Accesses to RAM and devices: the value of bytes as a number, untranslated accesses, and what the bus does once. -/
namespace Sys2Proof.Machine

namespace State

/-! ## The value of bytes of RAM (R160) -/

/-- n bytes from a up as a number: byte k weighs 256^k, and there are no more bits than theirs. -/
theorem toNat_ramValue_and_lt (s : State) (a n : Nat) (h : n ≤ 8) :
    (s.ramValue a n).toNat = ∑ k ∈ Finset.range n, (s.byteAt (a + k)).toNat * 256 ^ k ∧ (s.ramValue a n).toNat < 256 ^ n := by
  induction n generalizing a with
  | zero => simp [ramValue]
  | succ n ih =>
    obtain ⟨value, bound⟩ := ih (a + 1) (by omega)
    have fits : 256 ^ n * 256 ≤ 2 ^ 64 := (Nat.pow_le_pow_right (by decide) h : 256 ^ (n + 1) ≤ 256 ^ 8)
    have byte := (s.byteAt a).isLt
    have step : (s.ramValue a (n + 1)).toNat = (s.ramValue (a + 1) n).toNat * 256 + (s.byteAt a).toNat := by
      rw [ramValue, BitVec.toNat_or, BitVec.toNat_shiftLeft, BitVec.toNat_setWidth_of_le (by decide), Nat.shiftLeft_eq,
        Nat.mod_eq_of_lt (by omega), ← Nat.shiftLeft_eq, ← Nat.shiftLeft_add_eq_or_of_lt byte, Nat.shiftLeft_eq]
    refine ⟨?_, by rw [step, pow_succ]; omega⟩
    rw [step, value, Finset.sum_range_succ', Finset.sum_mul]
    simp [pow_succ, mul_assoc, Nat.add_comm, Nat.add_left_comm]

theorem toNat_ramValue (s : State) (a n : Nat) (h : n ≤ 8) :
    (s.ramValue a n).toNat = ∑ k ∈ Finset.range n, (s.byteAt (a + k)).toNat * 256 ^ k := (toNat_ramValue_and_lt s a n h).1

theorem ramValue_eq_ofNat_sum (s : State) (a n : Nat) (h : n ≤ 8) :
    s.ramValue a n = BitVec.ofNat 64 (∑ k ∈ Finset.range n, (s.byteAt (a + k)).toNat * 256 ^ k) := by
  rw [← toNat_ramValue s a n h, BitVec.ofNat_toNat, BitVec.setWidth_eq]

/-! ## Untranslated accesses to RAM (R200, R201, R230) -/

theorem memRead_ram {s : State} {va : Word} {n : Nat} (off : satpMode s.csr.satp = 0#4 ∨ s.effPriv .load = .M) (hn : 0 < n)
    (aligned : va.toNat % n = 0) (ram : inRam s.cfg va.toNat n = true) :
    s.memRead va n = .ok (s.ramValue va.toNat n, va) s := by
  simp [memRead, isAligned, aligned, translate_off va off, Res.bind, busRead_ram ram hn]

theorem memWrite_ram {s : State} {va : Word} {n : Nat} (v : Word) (off : satpMode s.csr.satp = 0#4 ∨ s.effPriv .store = .M)
    (hn : 0 < n) (aligned : va.toNat % n = 0) (ram : inRam s.cfg va.toNat n = true) :
    s.memWrite va n v = .ok () (s.writeRam va.toNat n v) := by
  simp [memWrite, isAligned, aligned, translate_off va off, Res.bind, busWrite_ram v ram hn]

theorem loadX_ram {s : State} {ea : Word} {n : Nat} (rd : Reg) (extend : Word → Word) (size : Word)
    (off : satpMode s.csr.satp = 0#4 ∨ s.effPriv .load = .M) (hn : 0 < n) (aligned : ea.toNat % n = 0)
    (ram : inRam s.cfg ea.toNat n = true) :
    s.loadX rd ea n extend size = .next ((s.writeX rd (extend (s.ramValue ea.toNat n))).retireTo (s.pc + size)) := by
  rw [loadX, memRead_ram off hn aligned ram]
  rfl

theorem store_ram {s : State} {ea : Word} {n : Nat} (v size : Word) (off : satpMode s.csr.satp = 0#4 ∨ s.effPriv .store = .M)
    (hn : 0 < n) (aligned : ea.toNat % n = 0) (ram : inRam s.cfg ea.toNat n = true) :
    s.store ea n v size = .next ((s.writeRam ea.toNat n v).retireTo (s.pc + size)) := by
  rw [store, memWrite_ram v off hn aligned ram]
  rfl

theorem width_pos_le {n : Nat} (h : n ∈ [1, 2, 4, 8]) : 0 < n ∧ n ≤ 8 := by
  simp only [List.mem_cons, List.not_mem_nil, or_false] at h
  omega

/-! ## A load after a store (R162, R263) -/

theorem effAddr_eq_ofInt (s : State) (rs1 : Reg) (imm : BitVec 12) :
    s.effAddr rs1 imm = BitVec.ofInt 64 ((s.readX rs1).toInt + imm.toInt) := by
  rw [effAddr, sext, BitVec.ofInt_add, BitVec.ofInt_toInt]
  rfl

/-- Where a store to untranslated RAM completes, a load of its width at the same operands then completes with the bytes stored,
extended. -/
theorem loadX_after_store {s t : State} {rs1 : Reg} {imm : BitVec 12} {n : Nat} {v size : Word} (rd : Reg)
    (extend : Word → Word) (off : satpMode s.csr.satp = 0#4 ∨ (s.effPriv .load = .M ∧ s.effPriv .store = .M))
    (width : n ∈ [1, 2, 4, 8]) (aligned : (s.effAddr rs1 imm).toNat % n = 0)
    (ram : inRam s.cfg (s.effAddr rs1 imm).toNat n = true) (stored : s.store (s.effAddr rs1 imm) n v size = .next t) :
    t.loadX rd (t.effAddr rs1 imm) n extend size = .next ((t.writeX rd (extend (lowBytes n v))).retireTo (t.pc + size)) := by
  obtain ⟨pos, le⟩ := width_pos_le width
  rw [store_ram v size (off.imp_right And.right) pos aligned ram] at stored
  have sameBase : t.effAddr rs1 imm = s.effAddr rs1 imm := by cases stored; rfl
  rw [sameBase]
  generalize s.effAddr rs1 imm = ea at *
  obtain rfl : (s.writeRam ea.toNat n v).retireTo (s.pc + size) = t := by cases stored; rfl
  have loaded : ((s.writeRam ea.toNat n v).retireTo (s.pc + size)).ramValue ea.toNat n = lowBytes n v :=
    (ramValue_congr fun _ _ => byteAt_retireTo ..).trans (ramValue_writeRam s ea.toNat n v le)
  rw [← loaded]
  exact loadX_ram rd extend size (off.imp_right And.left) pos aligned ram

theorem toNat_lowBytes (n : Nat) (v : Word) : (lowBytes n v).toNat = v.toNat % 2 ^ (8 * n) := by
  apply Nat.eq_of_testBit_eq
  intro j
  rw [Nat.testBit_mod_two_pow, ← BitVec.getLsbD, getLsbD_lowBytes]
  rfl

theorem signLoad_lowBytes (v : Word) : signLoad 32 (lowBytes 4 v) = BitVec.ofInt 64 (v.toInt.bmod (2 ^ 32)) := by
  have low : (lowBytes 4 v).extractLsb' 0 32 = v.signExtend 32 := by
    rw [BitVec.signExtend_eq_setWidth_of_le _ (by decide)]
    apply BitVec.eq_of_toNat_eq
    simp [toNat_lowBytes]
  rw [signLoad, sext, low, BitVec.signExtend, BitVec.signExtend, BitVec.toInt_ofInt]

theorem zeroLoad_lowBytes (n : Nat) (v : Word) : zeroLoad (8 * n) (lowBytes n v) = BitVec.ofNat 64 (v.toNat % 2 ^ (8 * n)) := by
  apply BitVec.eq_of_toNat_eq
  simp [zeroLoad, zext, toNat_lowBytes]

theorem lowBytes_eight (v : Word) : lowBytes 8 v = v :=
  BitVec.eq_of_toNat_eq (by rw [toNat_lowBytes, Nat.mod_eq_of_lt v.isLt])

/-! ## Devices (R174, R905) -/

theorem extractLsb'_eq_ofNat_iff (v : Word) (n : Nat) (c : Nat) (h : c < 2 ^ n) :
    v.extractLsb' 0 n = BitVec.ofNat n c ↔ v.toNat % 2 ^ n = c := by
  rw [← BitVec.toNat_inj, BitVec.extractLsb'_toNat, Nat.shiftRight_zero, BitVec.toNat_ofNat, Nat.mod_eq_of_lt h]

/-- A write to syscon ends a run that goes on exactly by the two values at offset 0 (R905). -/
theorem deviceWrite_syscon_ended {s : State} {n off : Nat} (v : Word) (running : s.ended = none) (wide : 2 ≤ n) :
    (s.deviceWrite .syscon off n v).ended =
      if off = 0 ∧ v.toNat % 2 ^ 16 = 0x5555 then some .shutdown
      else if off = 0 ∧ v.toNat % 2 ^ 16 = 0x7777 then some .reboot else none := by
  show (s.deviceEffect .syscon off n v).ended = _
  simp only [deviceEffect, ← extractLsb'_eq_ofNat_iff v 16 _ (by decide : 0x5555 < 2 ^ 16),
    ← extractLsb'_eq_ofNat_iff v 16 _ (by decide : 0x7777 < 2 ^ 16), wide, decide_true, Bool.and_true, decide_eq_true_eq]
  by_cases first : off = 0
  · simp only [first, if_true, true_and]
    split
    · rfl
    · split <;> simp [running]
  · simp [first, running]

theorem deviceRead_devLog (s : State) (d : Device) (off n : Nat) :
    (s.deviceRead d off n).2.devLog = .read d off n (s.deviceRead d off n).1 :: s.devLog := by
  cases d <;> rfl

theorem deviceWrite_devLog (s : State) (d : Device) (off n : Nat) (v : Word) :
    (s.deviceWrite d off n v).devLog = .write d off n (lowBytes n v) :: s.devLog := by
  have kept : (s.deviceEffect d off n v).devLog = s.devLog := by
    cases d <;> simp only [deviceEffect]
    (repeat' split) <;> rfl
  exact congrArg _ kept

theorem step_of_ended {s : State} {how : RunEnd} (h : s.ended = some how) : step s = .fault (.runEnded how) := by
  simp only [step, h]

end State

open State

/-- Settles O21: the address is the physical one, the bus gives RAM's bytes, and a write is one `writeRam`. -/
theorem alignedRamAccesses : Obligations.AlignedRamAccesses := by
  refine ⟨fun s va n width off aligned ram => ?_, fun s va v n width off aligned ram => ?_⟩
  · obtain ⟨pos, le⟩ := width_pos_le width
    rw [memRead_ram off pos aligned ram, ramValue_eq_ofNat_sum _ _ _ le]
  · obtain ⟨pos, -⟩ := width_pos_le width
    exact ⟨_, memWrite_ram v off pos aligned ram, fun k hk => byteAt_writeRam_inside _ _ _ _ hk,
      fun a ha => byteAt_writeRam_outside _ _ _ _ ha, sameCore_writeRam .., rfl, rfl, rfl, rfl, rfl, rfl⟩

/-- Settles O22: the load reads the low bytes of the value stored, and each form extends them. -/
theorem storeThenLoadRoundTrip : Obligations.StoreThenLoadRoundTrip := by
  intro s t rd rs1 rs2 imm off
  dsimp only
  rw [← effAddr_eq_ofInt]
  refine ⟨fun aligned ram h => ?_, fun aligned ram h => ?_, fun aligned ram h => ?_, fun ram h => ?_⟩
  · rw [← signLoad_lowBytes]
    exact loadX_after_store rd (signLoad 32) off (by decide) aligned ram h
  · rw [← lowBytes_eight (s.readX rs2)]
    exact loadX_after_store rd id off (by decide) aligned ram h
  · rw [← zeroLoad_lowBytes 2]
    exact loadX_after_store rd (zeroLoad 16) off (by decide) aligned ram h
  · rw [← zeroLoad_lowBytes 1]
    exact loadX_after_store rd (zeroLoad 8) off (by decide) (Nat.mod_one _) ram h

/-- Settles O26: the bus passes the access on to the device once, which changes neither RAM nor the core. -/
theorem deviceAccessesAndTheEndOfARun : Obligations.DeviceAccessesAndTheEndOfARun := by
  refine ⟨fun s d r pa v n owner accepted => ⟨?_, ?_⟩, fun s n off v running wide => ?_⟩
  · refine ⟨_, _, by simp only [busRead, owner, accepted, if_true], deviceRead_devLog .., ?_, sameCore_deviceRead ..⟩
    exact (deviceRead_rest ..).1
  · refine ⟨_, by simp only [busWrite, owner, accepted, if_true], deviceWrite_devLog .., ?_, sameCore_deviceWrite ..⟩
    exact (deviceWrite_rest ..).1
  · exact ⟨deviceWrite_syscon_ended v running wide, fun how => step_of_ended⟩

end Sys2Proof.Machine
end

section
/-! PROOFS. Fetching and running: what a step does with the bytes at pc, and the fences. -/
namespace Sys2Proof

/-! ## Codes and their bytes -/

namespace Laws.Encoding

/-- The decoder reads back the bits of every well-formed instruction: one law for each. -/
theorem decodeCode_encode {i : Instr} (h : i.wellFormed = true) : decodeCode (encode i) = .ok i := by
  have law : Statement i := by
    cases i <;> simp only [lui, auipc, addi, slti, sltiu, xori, ori, andi, slli, srli, srai, add, sub, sll, slt, sltu,
      xor, srl, sra, or, and, addiw, slliw, srliw, sraiw, addw, subw, sllw, srlw, sraw, jal, jalr, beq, bne, blt, bge, bltu,
      bgeu, lb, lh, lw, ld, lbu, lhu, lwu, sb, sh, sw, sd, mul, mulh, mulhsu, mulhu, div, divu, rem, remu, mulw, divw, divuw,
      remw, remuw, lrW, scW, lrD, scD, amoswapW, amoaddW, amoxorW, amoandW, amoorW, amominW, amomaxW, amominuW, amomaxuW,
      amoswapD, amoaddD, amoxorD, amoandD, amoorD, amominD, amomaxD, amominuD, amomaxuD, flw, fsw, fmaddS, fmsubS, fnmsubS,
      fnmaddS, faddS, fsubS, fmulS, fdivS, fsqrtS, fsgnjS, fsgnjnS, fsgnjxS, fminS, fmaxS, fcvtWS, fcvtWuS, fmvXW, feqS, fltS,
      fmvWX, fleS, fclassS, fcvtSW, fcvtSWu, fcvtLS, fcvtLuS, fcvtSL, fcvtSLu, fld, fsd, fmaddD, fmsubD, fnmsubD, fnmaddD,
      faddD, fsubD, fmulD, fdivD, fsqrtD, fsgnjD, fsgnjnD, fsgnjxD, fminD, fmaxD, fcvtSD, fcvtDS, feqD, fltD, fleD, fclassD,
      fcvtWD, fcvtWuD, fcvtDW, fcvtDWu, fcvtLD, fcvtLuD, fmvXD, fcvtDL, fcvtDLu, fmvDX, ecall, ebreak, mret, sret, wfi,
      sfenceVma, fence, fenceI, csrrw, csrrs, csrrc, csrrwi, csrrsi, csrrci, cAddi4spn, cFld, cLw, cLd, cFsd, cSw, cSd, cNop,
      cAddi, cAddiw, cLi, cAddi16sp, cLui, cSrli, cSrai, cAndi, cSub, cXor, cOr, cAnd, cSubw, cAddw, cJ, cBeqz, cBnez, cSlli,
      cFldsp, cLwsp, cLdsp, cJr, cMv, cEbreak, cJalr, cAdd, cFsdsp, cSwsp, cSdsp]
  exact law h

end Laws.Encoding

/-- Every opcode the decoder knows ends in 11 (R301). -/
theorem decode32_low {w : BitVec 32} {i : Instr} (h : decode32 w = some i) : w.extractLsb' 0 2 = 0b11#2 := by
  have low : w.extractLsb' 0 2 = (InstrField.opcode w).extractLsb' 0 2 := by
    ext j hj
    simp [InstrField.opcode]
  rw [low]
  unfold decode32 at h
  split at h
  case h_22 => cases h
  all_goals
    rename_i known
    rw [known]
    rfl

theorem decode16_low {p : BitVec 16} {i : Instr} (h : decode16 p = some i) : p.extractLsb' 0 2 ≠ 0b11#2 := by
  intro low
  have quadrant : InstrField.cquadrant p = 0b11#2 := low
  simp [decode16, quadrant] at h

namespace Machine

namespace State

/-! ## Fetching from RAM (R202, R203, R264) -/

theorem parcel_ramValue (s : State) (a : Nat) : (s.ramValue a 2).extractLsb' 0 16 = s.byteAt (a + 1) ++ s.byteAt a := by
  apply BitVec.eq_of_getLsbD_eq
  intro j hj
  rw [BitVec.getLsbD_extractLsb', getLsbD_ramValue _ _ _ (by decide), BitVec.getLsbD_append]
  by_cases low : j < 8
  · simp [hj, low, show j / 8 = 0 by omega, show j % 8 = j by omega]
  · simp [hj, low, show j / 8 = 1 by omega, show j % 8 = j - 8 by omega]

/-- With no older bytes kept, an untranslated parcel of RAM is the two bytes there, and fetching it changes nothing. -/
theorem fetch16_ram {s : State} {va : Word} (log : s.fetchLog = []) (off : satpMode s.csr.satp = 0#4 ∨ s.priv = .M)
    (ram : inRam s.cfg va.toNat 2 = true) : s.fetch16 va = (.ok (s.byteAt (va.toNat + 1) ++ s.byteAt va.toNat), s) := by
  have bus : s.fetchBus va = some (s.byteAt (va.toNat + 1) ++ s.byteAt va.toNat, s) := by
    simp only [fetchBus, log, ite_self, ownerOf_ram ram (by decide : 0 < 2), busRead_ram ram (by decide : 0 < 2), parcel_ramValue]
  rw [fetch16, translate_off va off]
  simp only [bus]

theorem inRam_part {c : Config} {a n k m : Nat} (h : inRam c a n = true) (hk : k + m ≤ n) : inRam c (a + k) m = true := by
  simp only [inRam, Bool.and_eq_true, decide_eq_true_eq] at *
  omega

theorem toNat_add_of_inRam {c : Config} {a : Word} {n k : Nat} (noWrap : c.ramBase + c.ramSize ≤ 2 ^ 64)
    (h : inRam c a.toNat n = true) (hk : k < n) : (a + BitVec.ofNat 64 k).toNat = a.toNat + k := by
  simp only [inRam, Bool.and_eq_true, decide_eq_true_eq] at h
  rw [BitVec.toNat_add, BitVec.toNat_ofNat, Nat.mod_eq_of_lt (a := k) (by omega), Nat.mod_eq_of_lt (by omega)]

/-- Where RAM holds the bytes of an instruction's bits at pc, an untranslated fetch gives those bits and changes nothing. -/
theorem fetchInstr_ram {s : State} {c : Code} {i : Instr} (log : s.fetchLog = [])
    (off : satpMode s.csr.satp = 0#4 ∨ s.priv = .M) (decodes : decodeCode c = .ok i)
    (noWrap : s.cfg.ramBase + s.cfg.ramSize ≤ 2 ^ 64) (ram : inRam s.cfg s.pc.toNat c.bytes.length = true)
    (bytes : ∀ (k : Nat) (h : k < c.bytes.length), s.byteAt (s.pc.toNat + k) = c.bytes[k]) :
    s.fetchInstr = (.ok c, s) := by
  cases c with
  | half p =>
    have inside (k : Nat) (h : k < 2) : k < (Code.half p).bytes.length := h
    have parcel : s.byteAt (s.pc.toNat + 1) ++ s.byteAt s.pc.toNat = p := by
      rw [bytes 1 (inside 1 (by decide)), ← Nat.add_zero s.pc.toNat, bytes 0 (inside 0 (by decide))]
      exact (BitVec.extractLsb'_append_extractLsb'_eq_extractLsb' rfl).trans BitVec.extractLsb'_eq_self
    rw [decodeCode] at decodes
    split at decodes <;> cases decodes
    have low := decode16_low ‹_›
    simp only [fetchInstr, fetch16_ram log off ram, parcel, low, if_false]
  | word w =>
    have inside (k : Nat) (h : k < 4) : k < (Code.word w).bytes.length := h
    have second : (s.pc + 2#64).toNat = s.pc.toNat + 2 := toNat_add_of_inRam (k := 2) noWrap ram (inside 2 (by decide))
    have lo : s.byteAt (s.pc.toNat + 1) ++ s.byteAt s.pc.toNat = w.extractLsb' 0 16 := by
      rw [bytes 1 (inside 1 (by decide)), ← Nat.add_zero s.pc.toNat, bytes 0 (inside 0 (by decide))]
      exact BitVec.extractLsb'_append_extractLsb'_eq_extractLsb' rfl
    have hi : s.byteAt (s.pc.toNat + 2 + 1) ++ s.byteAt (s.pc.toNat + 2) = w.extractLsb' 16 16 := by
      rw [Nat.add_assoc, bytes 3 (inside 3 (by decide)), bytes 2 (inside 2 (by decide))]
      exact BitVec.extractLsb'_append_extractLsb'_eq_extractLsb' rfl
    rw [decodeCode] at decodes
    split at decodes <;> cases decodes
    have low : (w.extractLsb' 0 16).extractLsb' 0 2 = 0b11#2 := by
      rw [← decode32_low ‹_›]
      ext j hj
      simp
    have whole : w.extractLsb' 16 16 ++ w.extractLsb' 0 16 = w :=
      (BitVec.extractLsb'_append_extractLsb'_eq_extractLsb' rfl).trans BitVec.extractLsb'_eq_self
    have first := fetch16_ram (va := s.pc) log off (inRam_part ram (k := 0) (inside 1 (by decide)))
    have next := fetch16_ram (va := s.pc + 2#64) log off (second ▸ inRam_part ram (k := 2) (inside 3 (by decide)))
    rw [lo] at first
    rw [second, hi] at next
    simp only [fetchInstr, first, low, if_true, next, whole]

/-! ## What a tick leaves alone -/

@[simp] theorem environment_cfg (s : State) : s.environment.cfg = s.cfg := (congrArg State.cfg (environment_frame s) :)
@[simp] theorem tick_cfg (s : State) : s.tick.cfg = s.cfg := by simp [tick]
@[simp] theorem tick_pc (s : State) : s.tick.pc = s.pc := by simp [tick]
@[simp] theorem tick_priv (s : State) : s.tick.priv = s.priv := by simp [tick]
@[simp] theorem tick_satp (s : State) : s.tick.csr.satp = s.csr.satp := by simp [tick, advance_csr]

/-! ## Running what was fetched -/

theorem step_runs {s : State} (running : s.ended = none) (awake : s.stillWaiting = false) (quiet : s.interruptNow = none) :
    step s = settle (runInstr { s.tick with waiting := false }) := by
  simp only [step, running, awake, quiet, Bool.false_eq_true, if_false]

theorem runInstr_fetched {s t : State} {c : Code} {i : Instr} (fetched : s.fetchInstr = (.ok c, t))
    (decodes : decodeCode c = .ok i) : s.runInstr = exec i t := by
  simp only [runInstr, fetched, execCode, decodes]

/-! ## Instructions a lower mode may not run (R704, R705, R720) -/

/-- An instruction that M-mode may always run, U-mode never, and S-mode unless a bit of mstatus traps it. -/
theorem allowedBelowM_iff (s : State) (trapsInS : Bool) :
    s.allowedBelowM trapsInS = true ↔ s.priv = .M ∨ (s.priv = .S ∧ trapsInS = false) := by
  cases h : s.priv <;> simp [allowedBelowM, h]

theorem not_allowedBelowM_iff (s : State) (trapsInS : Bool) :
    s.allowedBelowM trapsInS = false ↔ s.priv = .U ∨ (s.priv = .S ∧ trapsInS = true) := by
  cases h : s.priv <;> simp [allowedBelowM, h]

end State

open State

/-- Settles O5: nothing stands between the fetch of `c` and `exec` of what it decodes to. -/
theorem stepRunsTheDecodedInstruction : Obligations.StepRunsTheDecodedInstruction := by
  intro s t c i running awake quiet fetched decodes
  rw [step_runs running awake quiet, runInstr_fetched fetched decodes]

/-- Settles O6: the fetch gives the bits whose bytes stand at pc, which decode to the instruction they encode. -/
theorem stepRunsTheBytesAtPc : Obligations.StepRunsTheBytesAtPc := by
  intro s i running awake quiet off log wf noWrap ram bytes
  have fetched : fetchInstr { s.tick with waiting := false } = (.ok (encode i), { s.tick with waiting := false }) := by
    refine fetchInstr_ram log ?_ (Laws.Encoding.decodeCode_encode wf) ?_ ?_ ?_
    · rwa [tick_satp, tick_priv]
    · rwa [tick_cfg]
    · rwa [tick_cfg, tick_pc]
    · rw [tick_pc]
      exact bytes
  rw [step_runs running awake quiet, runInstr_fetched fetched (Laws.Encoding.decodeCode_encode wf)]

/-- Settles O39: each fence is its own meaning by mode, and a fetch with nothing kept is a read of RAM. -/
theorem fencesAndWait : Obligations.FencesAndWait := by
  refine ⟨fun s fm pred succ rs1 rs2 rd imm => ⟨rfl, rfl, fun h => ?_, fun h => ?_, fun h => ?_, fun h => ?_⟩,
    fun s va log off ram => fetch16_ram log off ram⟩
  · exact if_pos ((allowedBelowM_iff ..).mpr h)
  · exact if_neg (Bool.not_eq_true _ ▸ (not_allowedBelowM_iff ..).mpr h)
  · exact if_pos ((allowedBelowM_iff ..).mpr h)
  · exact if_neg (Bool.not_eq_true _ ▸ (not_allowedBelowM_iff ..).mpr h)

end Machine
end Sys2Proof
end

section
/-! PROOFS. Addresses, PTEs and TLB entries as numbers, flushes, and the effective privilege. -/
namespace Sys2Proof.Machine

/-! ## Virtual and physical addresses (R232, R233, R239) -/

theorem canonical_iff (va : Word) : canonical va = true ↔ -2 ^ 38 ≤ va.toInt ∧ va.toInt < 2 ^ 38 := by
  have low : ((va.extractLsb' 0 39).signExtend 64).toInt = Int.bmod va.toInt (2 ^ 39) := by
    rw [BitVec.toInt_signExtend_of_le (by decide), ← BitVec.setWidth_eq_extractLsb' (by decide), BitVec.toInt_setWidth,
      BitVec.toInt_eq_toNat_bmod, Int.bmod_bmod_of_dvd (by decide)]
  rw [canonical, beq_iff_eq, ← BitVec.toInt_inj, low, Int.bmod_def]
  omega

theorem vpnOf_toNat (va : Word) : (vpnOf va).toNat = va.toNat / 2 ^ 12 % 2 ^ 27 := by
  rw [vpnOf, BitVec.extractLsb'_toNat, Nat.shiftRight_eq_div_pow]

theorem PageSize.vpnBase_toNat (size : PageSize) (vpn : BitVec 27) :
    (size.vpnBase vpn).toNat = vpn.toNat / 2 ^ size.vpnBits * 2 ^ size.vpnBits := by
  rw [vpnBase, BitVec.toNat_shiftLeft, BitVec.toNat_ushiftRight, Nat.shiftRight_eq_div_pow, Nat.shiftLeft_eq]
  exact Nat.mod_eq_of_lt ((Nat.div_mul_le_self ..).trans_lt vpn.isLt)

theorem append_setWidth_toNat {a b : Nat} (x : BitVec a) (y : BitVec b) (h : a + b ≤ 64) :
    ((x ++ y).setWidth 64).toNat = x.toNat * 2 ^ b + y.toNat := by
  rw [BitVec.toNat_setWidth_of_le h, BitVec.toNat_append, ← Nat.shiftLeft_add_eq_or_of_lt y.isLt, Nat.shiftLeft_eq]

/-- The bits of the page are the page number's from the level up, the rest the address's (R239). -/
theorem pageAddress_toNat (size : PageSize) (ppn : BitVec 44) (va : Word) :
    (pageAddress size ppn va).toNat =
      ppn.toNat / 2 ^ size.vpnBits * 2 ^ (12 + size.vpnBits) + va.toNat % 2 ^ (12 + size.vpnBits) := by
  have hp := ppn.isLt
  cases size <;> refine (append_setWidth_toNat _ _ (by decide)).trans ?_ <;>
    simp only [PageSize.vpnBits, BitVec.extractLsb'_toNat, Nat.shiftRight_eq_div_pow] <;> omega

/-! ## Flushes (R250) -/

namespace TlbEntry

theorem covers_iff (e : TlbEntry) (a : Word) : e.covers a = true ↔ (a.toInt < 2 ^ 38 ∧ -2 ^ 38 ≤ a.toInt) ∧
    (a.toNat / 2 ^ 12 % 2 ^ 27) / 2 ^ e.size.vpnBits * 2 ^ e.size.vpnBits = e.vpn.toNat := by
  rw [covers, Bool.and_eq_true, canonical_iff, beq_iff_eq, ← BitVec.toNat_inj, PageSize.vpnBase_toNat, vpnOf_toNat,
    and_comm (a := -2 ^ 38 ≤ a.toInt)]

theorem selected_iff (e : TlbEntry) (va : Option Word) (asid : Option (BitVec 16)) : e.selected va asid = true ↔
    (∀ a, va = some a → e.covers a = true) ∧ (∀ n, asid = some n → e.g = false ∧ e.asid = n) := by
  cases va <;> cases asid <;> simp [selected]

end TlbEntry

namespace State

theorem mem_flush_iff (l : List TlbEntry) (va : Option Word) (asid : Option (BitVec 16)) (e : TlbEntry) :
    (e ∈ l.filter fun e => !e.selected va asid) ↔ e ∈ l ∧ ¬((∀ a, va = some a → (a.toInt < 2 ^ 38 ∧ -2 ^ 38 ≤ a.toInt) ∧
      (a.toNat / 2 ^ 12 % 2 ^ 27) / 2 ^ e.size.vpnBits * 2 ^ e.size.vpnBits = e.vpn.toNat) ∧
      (∀ n, asid = some n → e.g = false ∧ e.asid = n)) := by
  simp only [List.mem_filter, Bool.not_eq_true', ← Bool.not_eq_true, TlbEntry.selected_iff, TlbEntry.covers_iff]

theorem flush_all (l : List TlbEntry) : (l.filter fun e => !e.selected none none) = [] :=
  List.filter_eq_nil_iff.mpr fun e _ => by simp [TlbEntry.selected]

/-! ## Addresses that are not canonical (R232) -/

theorem translate_noncanonical {s : State} {acc : Access} {va : Word} (on : satpMode s.csr.satp ≠ 0#4)
    (mode : s.effPriv acc ≠ .M) (h : ¬(-2 ^ 38 ≤ va.toInt ∧ va.toInt < 2 ^ 38)) :
    s.translate acc va = .raise acc.pageFault va := by
  rw [← canonical_iff, Bool.not_eq_true] at h
  simp [translate, on, mode, h]

end State

open State

/-- Settles O40: a flush filters both TLBs by `selected`, which says what R250 says. -/
theorem sfenceRemovesWhatItNames : Obligations.SfenceRemovesWhatItNames := by
  intro s va asid e
  refine ⟨mem_flush_iff .., mem_flush_iff .., ?_, rfl⟩
  rintro rfl rfl
  exact ⟨flush_all _, flush_all _, rfl⟩

/-- Settles O53: each clause is the first test of translation that applies, and a leaf's address is a sum of two parts. -/
theorem translationOffAndPhysicalAddresses : Obligations.TranslationOffAndPhysicalAddresses := by
  refine ⟨fun s acc va => ⟨rfl, translate_off va, fun on mode h => ?_⟩, fun ppn va => ?_⟩
  · rw [translate_noncanonical on mode h]
    cases acc <;> rfl
  · exact ⟨(pageAddress_toNat .kib4 ppn va).trans (by rw [PageSize.vpnBits, Nat.pow_zero, Nat.div_one]),
      pageAddress_toNat .mib2 ppn va, pageAddress_toNat .gib1 ppn va, rfl, rfl, rfl⟩

end Sys2Proof.Machine
end

section
/-! PROOFS. The walk: what it reads, where it goes, and what the leaf it finds is. -/
namespace Sys2Proof.Machine

/-! ## PTEs as numbers (R234 to R237) -/

theorem extractLsb'_high_eq_zero_iff (p : Word) : p.extractLsb' 54 10 = 0#10 ↔ p.toNat / 2 ^ 54 = 0 := by
  rw [← BitVec.toNat_inj, BitVec.extractLsb'_toNat, Nat.shiftRight_eq_div_pow, Nat.mod_eq_of_lt (by have := p.isLt; omega)]
  rfl

theorem setWidth_shiftLeft_eq_mul8 (x : BitVec 9) : (x.setWidth 64 : Word) <<< 3 = BitVec.ofNat 64 (8 * x.toNat) := by
  rw [← BitVec.toNat_inj, BitVec.toNat_shiftLeft, BitVec.toNat_setWidth, Nat.shiftLeft_eq, BitVec.toNat_ofNat]
  omega

/-- The address of the PTE of va in the table at a, at level i (R236). -/
theorem pteAddr_eq (va a : Word) (i : Nat) :
    a + ((vpnPart va i).setWidth 64 <<< 3) = a + BitVec.ofNat 64 (8 * (va.toNat / 2 ^ (12 + 9 * i) % 2 ^ 9)) := by
  rw [setWidth_shiftLeft_eq_mul8, vpnPart, BitVec.extractLsb'_toNat, Nat.shiftRight_eq_div_pow]

/-- The table at a page number. -/
theorem table_eq (ppn : BitVec 44) : (ppn.setWidth 64 : Word) <<< 12 = BitVec.ofNat 64 (ppn.toNat * 4096) := by
  rw [← BitVec.toNat_inj, BitVec.toNat_shiftLeft, BitVec.toNat_setWidth, Nat.shiftLeft_eq, BitVec.toNat_ofNat]
  omega

theorem satpPpn_toNat (satp : Word) : (satpPpn satp).toNat = satp.toNat % 2 ^ 44 := by
  rw [satpPpn, BitVec.extractLsb'_toNat, Nat.shiftRight_zero]

namespace Pte

theorem ppn_toNat (p : Word) : (ppn p).toNat = p.toNat / 2 ^ 10 % 2 ^ 44 := by
  rw [ppn, BitVec.extractLsb'_toNat, Nat.shiftRight_eq_div_pow]

theorem malformed_iff (p : Word) : malformed p = true ↔
    p.getLsbD 0 = false ∨ (p.getLsbD 1 = false ∧ p.getLsbD 2 = true) ∨ p.toNat / 2 ^ 54 ≠ 0 := by
  rw [malformed, Bool.or_eq_true, Bool.or_eq_true, Bool.and_eq_true, bne_iff_ne, ne_eq, extractLsb'_high_eq_zero_iff, or_assoc,
    Bool.not_eq_true', Bool.not_eq_true']
  rfl

theorem pointer_iff (p : Word) : pointer p = true ↔ p.getLsbD 1 = false ∧ p.getLsbD 3 = false := by
  rw [pointer, Bool.and_eq_true, Bool.not_eq_true', Bool.not_eq_true']
  rfl

theorem wf_iff (p : Word) : malformed p = false ↔
    p.getLsbD 0 = true ∧ (p.getLsbD 2 = true → p.getLsbD 1 = true) ∧ p.toNat / 2 ^ 54 = 0 := by
  rw [← Bool.not_eq_true, malformed_iff, not_or, not_or, not_not, Bool.not_eq_false, not_and', Bool.not_eq_false]

theorem not_pointer_iff (p : Word) : pointer p = false ↔ p.getLsbD 1 = true ∨ p.getLsbD 3 = true := by
  rw [← Bool.not_eq_true, pointer_iff, not_and_or, Bool.not_eq_false, Bool.not_eq_false]

/-- With bits 63:54 clear, the low parts of the page number are those of the whole PTE. -/
theorem aligned_iff {p : Word} (level : Nat) (wf : malformed p = false) :
    aligned p level = true ↔ p.toNat / 2 ^ 10 % 2 ^ (9 * level) = 0 := by
  have high := ((wf_iff p).mp wf).2.2
  rw [aligned, beq_iff_eq, ← BitVec.toNat_inj, BitVec.extractLsb'_toNat, ppn_toNat, Nat.shiftRight_zero,
    Nat.mod_eq_of_lt (a := p.toNat / 2 ^ 10) (by omega)]
  rfl

/-- A pointer that is not malformed has V set and R, W and X clear. -/
theorem low_of_pointer {p : Word} (wf : malformed p = false) (ptr : pointer p = true) : p.toNat % 2 ^ 4 = 1 := by
  obtain ⟨r, x⟩ := (pointer_iff p).mp ptr
  obtain ⟨v, wr, -⟩ := (wf_iff p).mp wf
  have w : p.getLsbD 2 = false := Bool.eq_false_of_not_eq_true fun w => Bool.false_ne_true (r.symm.trans (wr w))
  have low : p.extractLsb' 0 4 = 1#4 := by
    apply BitVec.eq_of_getLsbD_eq
    intro j hj
    rw [BitVec.getLsbD_extractLsb', Nat.zero_add]
    interval_cases j
    · simpa using v
    · simpa using r
    · simpa using w
    · simpa using x
  simpa using congrArg BitVec.toNat low

/-- The table a pointer leads to (R236). -/
theorem next_table_eq (p : Word) : (ppn p).setWidth 64 <<< 12 = BitVec.ofNat 64 (p.toNat / 2 ^ 10 % 2 ^ 44 * 4096) := by
  rw [table_eq, ppn_toNat]

end Pte

namespace State

/-- What each access needs of a page's flags (R235). -/
def Grants (m : Mstatus) (acc : Access) (r w x : Bool) : Prop :=
  match acc with
  | .fetch => x = true
  | .load => r = true ∨ (m.mxr = true ∧ x = true)
  | .store => w = true

theorem permitted_iff (s : State) (acc : Access) (p : Priv) (r w x u : Bool) : s.permitted acc p r w x u = true ↔
    Grants s.csr.mstatus acc r w x ∧
      ((p = .U ∧ u = true) ∨ (p = .S ∧ (u = false ∨ (acc ≠ .fetch ∧ s.csr.mstatus.sum = true)))) := by
  unfold permitted
  rw [Bool.and_eq_true]
  refine and_congr ?_ ?_
  · cases acc <;> simp [Grants]
  · cases p <;> simp

theorem SameCore.permitted {s t : State} (h : SameCore s t) (acc : Access) (p : Priv) (r w x u : Bool) :
    t.permitted acc p r w x u = s.permitted acc p r w x u := by
  unfold State.permitted
  rw [h.csr]

theorem readPte_now (s : State) (pa : Word) : s.readPte 0 pa = s.busRead pa 8 := by simp [readPte]

/-! ## One level of a walk (R236) -/

section
variable {s : State} {k : Nat} {acc : Access} {p : Priv} {va a : Word} {i : Nat}

theorem walkFrom_unread (h : s.readPte k (a + ((vpnPart va i).setWidth 64 <<< 3)) = none) :
    s.walkFrom k acc p va a i = (.accessFault, s) := by
  cases i <;> (rw [walkFrom.eq_def]; simp only [h])

theorem walkFrom_read {q : Word} {u : State} (h : s.readPte k (a + ((vpnPart va i).setWidth 64 <<< 3)) = some (q, u)) :
    s.walkFrom k acc p va a i =
      if Pte.malformed q then (.pageFault, u)
      else if Pte.pointer q then
        if i = 0 then (.pageFault, u) else u.walkFrom k acc p va ((Pte.ppn q).setWidth 64 <<< 12) (i - 1)
      else if !u.permitted acc p (Pte.r q) (Pte.w q) (Pte.x q) (Pte.u q) then (.pageFault, u)
      else if !Pte.aligned q i then (.pageFault, u)
      else (.leaf (a + ((vpnPart va i).setWidth 64 <<< 3)) q i, u) := by
  cases i with
  | zero => rw [walkFrom.eq_def]; simp only [h, if_true]
  | succ j => rw [walkFrom.eq_def]; simp only [h, Nat.succ_ne_zero, if_false, Nat.add_one_sub_one]

/-- The leaf a walk gives is well-formed, no pointer, permitted and aligned. -/
structure IsLeaf (s : State) (acc : Access) (p : Priv) (pte : Word) (level : Nat) : Prop where
  wf        : Pte.malformed pte = false
  leaf      : Pte.pointer pte = false
  permitted : s.permitted acc p (Pte.r pte) (Pte.w pte) (Pte.x pte) (Pte.u pte) = true
  aligned   : Pte.aligned pte level = true

/-- A walk that gives a leaf has read a PTE here that is the leaf, or one that points to the table whose walk gives it. -/
theorem walkFrom_leaf_cases {t : State} {pteAddr pte : Word} {level : Nat}
    (h : s.walkFrom k acc p va a i = (.leaf pteAddr pte level, t)) :
    ∃ q u, s.readPte k (a + ((vpnPart va i).setWidth 64 <<< 3)) = some (q, u) ∧
      ((IsLeaf s acc p pte level ∧ pteAddr = a + ((vpnPart va i).setWidth 64 <<< 3) ∧ pte = q ∧ level = i ∧ t = u) ∨
        (Pte.malformed q = false ∧ Pte.pointer q = true ∧ i ≠ 0 ∧
          u.walkFrom k acc p va ((Pte.ppn q).setWidth 64 <<< 12) (i - 1) = (.leaf pteAddr pte level, t))) := by
  cases hread : s.readPte k (a + ((vpnPart va i).setWidth 64 <<< 3)) with
  | none => rw [walkFrom_unread hread] at h; cases h
  | some r =>
    obtain ⟨q, u⟩ := r
    refine ⟨q, u, rfl, ?_⟩
    rw [walkFrom_read hread] at h
    split_ifs at h with malformed pointer zero denied misaligned
    · cases h
    · cases h
    · exact .inr ⟨Bool.eq_false_of_not_eq_true malformed, pointer, zero, h⟩
    · cases h
    · cases h
    · cases h
      refine .inl ⟨⟨Bool.eq_false_of_not_eq_true malformed, Bool.eq_false_of_not_eq_true pointer, ?_, ?_⟩, rfl, rfl, rfl, rfl⟩
      · rw [← (readPte_some hread).1.permitted]
        simpa using denied
      · simpa using misaligned

end

/-- Induction along a walk that gives a leaf: from the level of the leaf, up through each PTE that points to the table below. -/
theorem walkFrom_leaf_induction {t : State} {k : Nat} {acc : Access} {p : Priv} {va pteAddr pte : Word} {level : Nat}
    {motive : State → Word → Nat → Prop}
    (here : ∀ s a, s.readPte k (a + ((vpnPart va level).setWidth 64 <<< 3)) = some (pte, t) → IsLeaf s acc p pte level →
      pteAddr = a + ((vpnPart va level).setWidth 64 <<< 3) → motive s a level)
    (above : ∀ s a i q u, s.readPte k (a + ((vpnPart va (i + 1)).setWidth 64 <<< 3)) = some (q, u) → Pte.malformed q = false →
      Pte.pointer q = true → u.walkFrom k acc p va ((Pte.ppn q).setWidth 64 <<< 12) i = (.leaf pteAddr pte level, t) →
      motive u ((Pte.ppn q).setWidth 64 <<< 12) i → motive s a (i + 1))
    {s : State} {a : Word} {i : Nat} (h : s.walkFrom k acc p va a i = (.leaf pteAddr pte level, t)) : motive s a i := by
  induction i generalizing s a with
  | zero =>
    obtain ⟨q, u, read, ⟨leaf, addr, rfl, rfl, rfl⟩ | ⟨-, -, zero, -⟩⟩ := walkFrom_leaf_cases h
    · exact here s a read leaf addr
    · exact absurd rfl zero
  | succ i ih =>
    obtain ⟨q, u, read, ⟨leaf, addr, rfl, rfl, rfl⟩ | ⟨wf, ptr, -, below⟩⟩ := walkFrom_leaf_cases h
    · exact here s a read leaf addr
    · exact above s a i q u read wf ptr below (ih below)

theorem walkFrom_isLeaf {s t : State} {k : Nat} {acc : Access} {p : Priv} {va a pteAddr pte : Word} {i level : Nat}
    (h : s.walkFrom k acc p va a i = (.leaf pteAddr pte level, t)) : level ≤ i ∧ IsLeaf s acc p pte level := by
  refine walkFrom_leaf_induction (motive := fun s _ i => level ≤ i ∧ IsLeaf s acc p pte level)
    (fun s a _ leaf _ => ⟨le_rfl, leaf⟩) (fun s a i q u read _ _ _ ih => ?_) h
  obtain ⟨le, leaf⟩ := ih
  exact ⟨le.trans (Nat.le_succ i), { leaf with permitted := by rw [← (readPte_some read).1.permitted]; exact leaf.permitted }⟩

/-! ## The tables a walk goes through (R236) -/

theorem ramValue_of_mem {s t : State} (h : t.mem = s.mem) (a n : Nat) : t.ramValue a n = s.ramValue a n :=
  ramValue_congr fun _ _ => byteAt_eq_of_mem h _

/-- What a PTE read now gives, where RAM holds the PTE. -/
theorem readPte_ram {s u : State} {pa q : Word} (h : s.readPte 0 pa = some (q, u)) (ram : inRam s.cfg pa.toNat 8 = true) :
    q = s.ramValue pa.toNat 8 := by
  rw [readPte_now, busRead_ram ram (by decide)] at h
  cases h
  rfl

/-- A walk of va from the table at a goes through these tables and PTEs, from level i down to the leaf: each PTE in RAM is what
RAM holds, and each above the leaf points to the next table. -/
structure IsPath (s : State) (va a : Word) (i level : Nat) (pteAddr pte : Word) (table entry : Nat → Word) : Prop where
  root     : table i = a
  leafAddr : table level + ((vpnPart va level).setWidth 64 <<< 3) = pteAddr
  leaf     : entry level = pte
  held     : ∀ j, level ≤ j → j ≤ i → inRam s.cfg (table j + ((vpnPart va j).setWidth 64 <<< 3)).toNat 8 = true →
    entry j = s.ramValue (table j + ((vpnPart va j).setWidth 64 <<< 3)).toNat 8
  pointers : ∀ j, level < j → j ≤ i → Pte.malformed (entry j) = false ∧ Pte.pointer (entry j) = true ∧
    table (j - 1) = (Pte.ppn (entry j)).setWidth 64 <<< 12

theorem IsPath.here {s : State} {va a pteAddr pte : Word} {i : Nat} (addr : pteAddr = a + ((vpnPart va i).setWidth 64 <<< 3))
    (held : inRam s.cfg pteAddr.toNat 8 = true → pte = s.ramValue pteAddr.toNat 8) :
    IsPath s va a i i pteAddr pte (fun _ => a) (fun _ => pte) where
  root := rfl
  leafAddr := addr.symm
  leaf := rfl
  held j le ge := by
    obtain rfl := Nat.le_antisymm ge le
    exact addr ▸ held
  pointers j lt ge := absurd lt (Nat.not_lt.mpr ge)

/-- One more level above a path. -/
theorem IsPath.extend {s u : State} {va a q pteAddr pte : Word} {i level : Nat} {table entry : Nat → Word}
    (h : IsPath u va ((Pte.ppn q).setWidth 64 <<< 12) i level pteAddr pte table entry) (le : level ≤ i)
    (read : s.readPte 0 (a + ((vpnPart va (i + 1)).setWidth 64 <<< 3)) = some (q, u)) (wf : Pte.malformed q = false)
    (ptr : Pte.pointer q = true) :
    IsPath s va a (i + 1) level pteAddr pte (Function.update table (i + 1) a) (Function.update entry (i + 1) q) := by
  obtain ⟨same, mem, -⟩ := readPte_some read
  have old (j : Nat) (hj : j ≤ i) (f : Nat → Word) (v : Word) : Function.update f (i + 1) v j = f j :=
    Function.update_of_ne (by omega) ..
  constructor
  · exact Function.update_self ..
  · rw [old level le]
    exact h.leafAddr
  · rw [old level le]
    exact h.leaf
  · intro j ge lt
    obtain rfl | lt := Nat.eq_or_lt_of_le lt
    · rw [Function.update_self, Function.update_self]
      exact readPte_ram read
    · rw [old j (by omega), old j (by omega), ← ramValue_of_mem mem, ← same.cfg]
      exact h.held j ge (by omega)
  · intro j gt lt
    obtain rfl | lt := Nat.eq_or_lt_of_le lt
    · rw [Function.update_self, Nat.add_one_sub_one, old i le_rfl, h.root]
      exact ⟨wf, ptr, rfl⟩
    · rw [old j (by omega), old (j - 1) (by omega)]
      exact h.pointers j gt (by omega)

theorem walkFrom_isPath {s t : State} {acc : Access} {p : Priv} {va a pteAddr pte : Word} {i level : Nat}
    (h : s.walkFrom 0 acc p va a i = (.leaf pteAddr pte level, t)) :
    ∃ table entry, IsPath s va a i level pteAddr pte table entry := by
  refine walkFrom_leaf_induction (motive := fun s a i => ∃ table entry, IsPath s va a i level pteAddr pte table entry)
    (fun s a read _ addr => ⟨_, _, .here addr (readPte_ram (addr ▸ read))⟩) (fun s a i q u read wf ptr below ih => ?_) h
  obtain ⟨table, entry, path⟩ := ih
  exact ⟨_, _, path.extend (walkFrom_isLeaf below).1 read wf ptr⟩

end State

open State

/-- Settles O54: the leaf and the path to it by induction on the levels, the cases of one level by `walkFrom_read`. -/
theorem walkFindsPermittedLeaves : Obligations.WalkFindsPermittedLeaves := by
  refine ⟨fun s t acc p va a pteAddr pte i level h => ?_, fun s acc p va a i => ?_⟩
  · obtain ⟨le, leaf⟩ := walkFrom_isLeaf h
    obtain ⟨table, entry, path⟩ := walkFrom_isPath h
    obtain ⟨valid, readable, high⟩ := (Pte.wf_iff pte).mp leaf.wf
    obtain ⟨grants, mode⟩ := (permitted_iff ..).mp leaf.permitted
    refine ⟨le, valid, readable, high, (Pte.not_pointer_iff pte).mp leaf.leaf, (Pte.aligned_iff level leaf.wf).mp leaf.aligned,
      grants, ?_, table, entry, path.root, (pteAddr_eq ..).symm.trans path.leafAddr,
      path.leaf, fun j ge lt ram => ?_, fun j gt lt => ?_⟩
    · obtain ⟨user, u⟩ | ⟨supervisor, u | sum⟩ := mode
      · exact .inl ⟨user, u⟩
      · exact .inr (.inl ⟨supervisor, u⟩)
      · cases u : pte.getLsbD 4 with
        | false => exact .inr (.inl ⟨supervisor, u⟩)
        | true => exact .inr (.inr ⟨supervisor, u, sum⟩)
    · dsimp only at ram ⊢
      rw [← pteAddr_eq] at ram ⊢
      rw [path.held j ge lt ram, toNat_ramValue _ _ _ le_rfl]
    · obtain ⟨wf, ptr, next⟩ := path.pointers j gt lt
      exact ⟨Pte.low_of_pointer wf ptr, ((Pte.wf_iff _).mp wf).2.2, next.trans (Pte.next_table_eq _)⟩
  · dsimp only
    rw [← pteAddr_eq]
    refine ⟨fun unread => by rw [walkFrom_unread ((readPte_now ..).trans unread)], fun q u read => ?_⟩
    rw [walkFrom_read ((readPte_now ..).trans read), ← Pte.malformed_iff, ← Pte.pointer_iff, ← Pte.next_table_eq]
    have permits := permitted_iff u acc p (Pte.r q) (Pte.w q) (Pte.x q) (Pte.u q)
    rw [(sameCore_busRead read).csr] at permits
    refine ⟨fun bad => ?_, fun wf ptr zero => ?_, fun wf ptr more => ?_, fun wf leaf bad => ?_, fun wf leaf ok aligned => ?_⟩
    · rw [if_pos bad]
    · rw [if_neg wf, if_pos ptr, if_pos zero]
    · rw [if_neg wf, if_pos ptr, if_neg more]
    · rw [if_neg wf, if_neg leaf]
      split_ifs with denied misaligned
      · rfl
      · rfl
      · rw [Bool.not_eq_true, Bool.not_eq_false'] at denied misaligned
        rw [Pte.aligned_iff i (Bool.eq_false_of_not_eq_true wf)] at misaligned
        exact absurd misaligned (bad.resolve_left (not_not.mpr (permits.mp denied)))
    · rw [if_neg wf, if_neg leaf, permits.mpr ok, (Pte.aligned_iff i (Bool.eq_false_of_not_eq_true wf)).mpr aligned]
      rfl

end Sys2Proof.Machine
end

section
/-! PROOFS. Translation: by an entry of the TLB, or by a walk of the tables as they are, whose leaf the bus lets it mark. -/
namespace Sys2Proof.Machine

open State

/-! ## The leaf with A and D set (R238) -/

theorem markedPte_eq (acc : Access) (pte : Word) :
    markedPte acc pte = pte ||| (if acc = .store then 0xC0#64 else 0x40#64) := by
  unfold markedPte
  split <;> rfl

/-- Bits other than A and D are the leaf's. -/
theorem getLsbD_markedPte (acc : Access) (pte : Word) {k : Nat} (h : k < 6) :
    (markedPte acc pte).getLsbD k = pte.getLsbD k := by
  rw [markedPte_eq, BitVec.getLsbD_or]
  split <;> interval_cases k <;> simp

theorem d_markedPte (acc : Access) (pte : Word) : Pte.d (markedPte acc pte) = (Pte.d pte || decide (acc = .store)) := by
  rw [Pte.d, markedPte_eq, BitVec.getLsbD_or]
  split <;> simp [*, Pte.d]

theorem ppn_markedPte (acc : Access) (pte : Word) : Pte.ppn (markedPte acc pte) = Pte.ppn pte := by
  rw [Pte.ppn, markedPte_eq, BitVec.extractLsb'_or]
  split <;> simp [Pte.ppn]

/-- The page number of an entry of level 0, 1 or 2 (R233, R241). -/
theorem vpnBase_ofLevel (va : Word) {level : Nat} (h : level ≤ 2) : (PageSize.ofLevel level).vpnBase (vpnOf va) =
    BitVec.ofNat 27 (va.toNat / 2 ^ (12 + 9 * level) * 2 ^ (9 * level)) := by
  rw [← BitVec.toNat_inj, PageSize.vpnBase_toNat, vpnOf_toNat, BitVec.toNat_ofNat]
  interval_cases level <;> simp only [PageSize.ofLevel, PageSize.vpnBits] <;> omega

theorem ppn_eq_ofNat (pte : Word) : Pte.ppn pte = BitVec.ofNat 44 (pte.toNat / 2 ^ 10) := by
  rw [← BitVec.toNat_inj, Pte.ppn_toNat, BitVec.toNat_ofNat]

namespace TlbEntry

/-- The entry a walk fills in, written out. -/
theorem ofLeaf_marked (va : Word) (asid : BitVec 16) (acc : Access) (pte : Word) {level : Nat} (h : level ≤ 2) :
    ofLeaf va asid level (markedPte acc pte) = {
      vpn := BitVec.ofNat 27 (va.toNat / 2 ^ (12 + 9 * level) * 2 ^ (9 * level)), asid := asid,
      ppn := BitVec.ofNat 44 (pte.toNat / 2 ^ 10), r := pte.getLsbD 1, w := pte.getLsbD 2, x := pte.getLsbD 3,
      u := pte.getLsbD 4, g := pte.getLsbD 5, a := true, d := pte.getLsbD 7 || decide (acc = .store),
      size := PageSize.ofLevel level } := by
  rw [← ppn_eq_ofNat]
  simp only [ofLeaf, vpnBase_ofLevel va h, ppn_markedPte, d_markedPte]
  simp only [Pte.r, Pte.w, Pte.x, Pte.u, Pte.g, Pte.d]
  rw [getLsbD_markedPte _ _ (by decide), getLsbD_markedPte _ _ (by decide), getLsbD_markedPte _ _ (by decide),
    getLsbD_markedPte _ _ (by decide), getLsbD_markedPte _ _ (by decide)]

theorem hits_ofLeaf {va : Word} (h : canonical va = true) (asid : BitVec 16) (level : Nat) (pte : Word) :
    (ofLeaf va asid level pte).hits va asid = true := by
  simp [hits, covers, ofLeaf, h]

end TlbEntry

namespace State

/-! ## The walk's write of A and D (R238) -/

/-- The bus takes a write wherever it gives a read of that width, in any state of the same configuration. -/
theorem busWrite_isSome_of_busRead {s t : State} {pa : Word} {n : Nat} {r : Word × State} (read : s.busRead pa n = some r)
    (cfg : t.cfg = s.cfg) (v : Word) : (t.busWrite pa n v).isSome = true := by
  unfold busRead at read
  unfold busWrite
  rw [cfg]
  split at read
  · cases read
  · split at read
    · simp [*]
    · cases read
  · split at read
    · simp [*]
    · cases read

theorem walkFrom_busWrite {s t : State} {acc : Access} {p : Priv} {va a pteAddr pte : Word} {i level : Nat}
    (h : s.walkFrom 0 acc p va a i = (.leaf pteAddr pte level, t)) (v : Word) : (t.busWrite pteAddr 8 v).isSome = true := by
  refine walkFrom_leaf_induction (motive := fun _ _ _ => (t.busWrite pteAddr 8 v).isSome = true)
    (fun s a read _ addr => ?_) (fun _ _ _ _ _ _ _ _ _ ih => ih) h
  rw [addr]
  exact busWrite_isSome_of_busRead ((readPte_now ..).symm.trans read) (readPte_some read).1.cfg v

/-- w is t with the leaf marked, where it was not. -/
def Marks (acc : Access) (pteAddr pte : Word) (t w : State) : Prop :=
  (markedPte acc pte = pte ∧ w = t) ∨ (markedPte acc pte ≠ pte ∧ t.updatePte pteAddr (markedPte acc pte) = some w)

/-- Only a leaf that must be marked changes, and only its eight bytes. -/
theorem Marks.byteAt {acc : Access} {pteAddr pte : Word} {t w : State} (h : Marks acc pteAddr pte t w) {a : Nat}
    (outside : markedPte acc pte ≠ pte → a < pteAddr.toNat ∨ pteAddr.toNat + 8 ≤ a) : w.byteAt a = t.byteAt a := by
  obtain ⟨-, rfl⟩ | ⟨unmarked, update⟩ := h
  · rfl
  · obtain ⟨u, write, rfl⟩ := updatePte_some update
    exact byteAt_busWrite_outside write (outside unmarked)

/-- In RAM the leaf is then the marked one. -/
theorem Marks.ramValue {acc : Access} {pteAddr pte : Word} {t w : State} (h : Marks acc pteAddr pte t w)
    (ram : inRam t.cfg pteAddr.toNat 8 = true) (held : pte = t.ramValue pteAddr.toNat 8) :
    w.ramValue pteAddr.toNat 8 = markedPte acc pte := by
  obtain ⟨marked, rfl⟩ | ⟨-, update⟩ := h
  · rw [marked, ← held]
  · obtain ⟨u, write, rfl⟩ := updatePte_some update
    rw [busWrite_ram _ ram (by decide)] at write
    cases write
    exact (ramValue_of_mem rfl _ _).trans ((ramValue_writeRam t _ 8 _ le_rfl).trans (lowBytes_eight _))

/-! ## Filling a TLB (R243) -/

theorem tlb_setTlb (s : State) (acc : Access) (l : List TlbEntry) : (s.setTlb acc l).tlb acc = l := by cases acc <;> rfl

@[simp] theorem byteAt_fill (s : State) (acc : Access) (va : Word) (e : TlbEntry) (a : Nat) :
    (s.fill acc va e).byteAt a = s.byteAt a := byteAt_eq_of_mem (setTlb_mem ..) a

theorem head_tlb_fill {s : State} (acc : Access) (va : Word) (e : TlbEntry) (size : s.cfg.tlbSize ≠ 0) :
    ((s.fill acc va e).tlb acc).head? = some e := by
  obtain ⟨n, hn⟩ := Nat.exists_eq_succ_of_ne_zero size
  rw [fill, tlb_setTlb, hn]
  rfl

/-! ## A walk of the tables as they are (R230, R243) -/

/-- The walk of va for an access in the state s, from the root in satp. -/
def rootWalk (s : State) (acc : Access) (p : Priv) (va : Word) : Walk × State :=
  s.walkFrom 0 acc p va ((satpPpn s.csr.satp).setWidth 64 <<< 12) 2

theorem rootWalk_eq (s : State) (acc : Access) (p : Priv) (va : Word) :
    s.rootWalk acc p va = s.walkFrom 0 acc p va (BitVec.ofNat 64 (s.csr.satp.toNat % 2 ^ 44 * 4096)) 2 := by
  rw [rootWalk, table_eq, satpPpn_toNat]

/-- The entry a leaf fills in. -/
def leafEntry (s : State) (acc : Access) (va pte : Word) (level : Nat) : TlbEntry :=
  TlbEntry.ofLeaf va (satpAsid s.csr.satp) level (markedPte acc pte)

theorem leafEntry_address (s : State) (acc : Access) (va pte : Word) (level : Nat) :
    pageAddress (s.leafEntry acc va pte level).size (s.leafEntry acc va pte level).ppn va =
      pageAddress (PageSize.ofLevel level) (Pte.ppn pte) va := by
  rw [← ppn_markedPte acc pte]
  rfl

theorem leafEntry_dirty (s : State) {acc : Access} (va pte : Word) (level : Nat) (store : acc = .store) :
    (s.leafEntry acc va pte level).d = true := by
  rw [leafEntry, TlbEntry.ofLeaf, d_markedPte, decide_eq_true store, Bool.or_true]

section
variable {s : State} {acc : Access} {p : Priv} {va : Word}

theorem rootWalk_mem {r : Walk} {t : State} (h : s.rootWalk acc p va = (r, t)) : t.mem = s.mem := by
  have frame := (walkFrom_frame s 0 acc p va ((satpPpn s.csr.satp).setWidth 64 <<< 12) 2).2.1
  rwa [← rootWalk, h] at frame

theorem walk_pageFault (h : (s.rootWalk acc p va).1 = .pageFault) : s.walk acc p va = .raise acc.pageFault va := by
  have found : s.rootWalk acc p va = (.pageFault, _) := Prod.ext h rfl
  unfold walk
  rw [← rootWalk, found]

theorem walk_accessFault (h : (s.rootWalk acc p va).1 = .accessFault) : s.walk acc p va = .raise acc.accessFault va := by
  have found : s.rootWalk acc p va = (.accessFault, _) := Prod.ext h rfl
  unfold walk
  rw [← rootWalk, found]

/-- A walk that finds a leaf answers its address, marks it and fills its entry: the bus takes the write. -/
theorem walk_leaf {t : State} {pteAddr pte : Word} {level : Nat} (h : s.rootWalk acc p va = (.leaf pteAddr pte level, t)) :
    ∃ w, Marks acc pteAddr pte t w ∧ s.walk acc p va =
      .ok (pageAddress (PageSize.ofLevel level) (Pte.ppn pte) va) (w.fill acc va (s.leafEntry acc va pte level)) := by
  have asid : TlbEntry.ofLeaf va (satpAsid t.csr.satp) level (markedPte acc pte) = s.leafEntry acc va pte level := by
    rw [(kept_of_walkFrom h).same.csr, leafEntry]
  unfold walk
  rw [← rootWalk, h]
  dsimp only
  rw [asid, leafEntry_address]
  by_cases marked : markedPte acc pte = pte
  · exact ⟨t, .inl ⟨marked, rfl⟩, if_pos marked⟩
  · obtain ⟨u, write⟩ := Option.isSome_iff_exists.mp (walkFrom_busWrite h (markedPte acc pte))
    have update : t.updatePte pteAddr (markedPte acc pte) = some { u with ended := t.ended } := by rw [updatePte, write]; rfl
    exact ⟨_, .inr ⟨marked, update⟩, by rw [if_neg marked, update]⟩

theorem walk_ok {pa : Word} {t : State} (h : s.walk acc p va = .ok pa t) :
    ∃ pteAddr pte level w w', s.rootWalk acc p va = (.leaf pteAddr pte level, w) ∧ Marks acc pteAddr pte w w' ∧
      pa = pageAddress (PageSize.ofLevel level) (Pte.ppn pte) va ∧ t = w'.fill acc va (s.leafEntry acc va pte level) := by
  cases found : s.rootWalk acc p va with
  | mk result w =>
    cases result with
    | leaf pteAddr pte level =>
      obtain ⟨w', marks, eq⟩ := walk_leaf found
      rw [eq] at h
      cases h
      exact ⟨pteAddr, pte, level, w, w', rfl, marks, rfl, rfl⟩
    | pageFault => rw [walk_pageFault (by rw [found])] at h; cases h
    | accessFault => rw [walk_accessFault (by rw [found])] at h; cases h

/-- The leaf a walk finds in RAM is what RAM holds. -/
theorem rootWalk_held {t : State} {pteAddr pte : Word} {level : Nat} (h : s.rootWalk acc p va = (.leaf pteAddr pte level, t))
    (ram : inRam s.cfg pteAddr.toNat 8 = true) : pte = s.ramValue pteAddr.toNat 8 := by
  obtain ⟨table, entry, path⟩ := walkFrom_isPath h
  rw [← path.leafAddr] at ram ⊢
  rw [← path.leaf]
  exact path.held level le_rfl (walkFrom_isLeaf h).1 ram

/-- Where RAM holds the leaf a walk finds, it then holds the marked one. -/
theorem ramValue_marked {w w' : State} {pteAddr pte : Word} {level : Nat}
    (leaf : s.rootWalk acc p va = (.leaf pteAddr pte level, w))
    (marks : Marks acc pteAddr pte w w') (ram : inRam s.cfg pteAddr.toNat 8 = true) :
    w'.ramValue pteAddr.toNat 8 = markedPte acc pte := by
  refine marks.ramValue ?_ ((rootWalk_held leaf ram).trans (ramValue_of_mem (rootWalk_mem leaf) ..).symm)
  rwa [(kept_of_walkFrom leaf).same.cfg]

/-- The entry of a leaf permits what the leaf permits. -/
theorem leafEntry_permitted {t : State} {pteAddr pte : Word} {level : Nat}
    (h : s.rootWalk acc p va = (.leaf pteAddr pte level, t)) :
    s.permitted acc p (s.leafEntry acc va pte level).r (s.leafEntry acc va pte level).w (s.leafEntry acc va pte level).x
      (s.leafEntry acc va pte level).u = true := by
  have leaf := (walkFrom_isLeaf h).2.permitted
  simp only [leafEntry, TlbEntry.ofLeaf, Pte.r, Pte.w, Pte.x, Pte.u] at leaf ⊢
  rwa [getLsbD_markedPte _ _ (by decide), getLsbD_markedPte _ _ (by decide), getLsbD_markedPte _ _ (by decide),
    getLsbD_markedPte _ _ (by decide)]

/-- What a walk that answers leaves: the leaf's entry as the most recent one of the TLB, and in RAM the leaf marked. -/
theorem walk_ok_leaves {pa : Word} {t : State} (h : s.walk acc p va = .ok pa t) (size : s.cfg.tlbSize ≠ 0) :
    ∃ pteAddr pte level w, s.rootWalk acc p va = (.leaf pteAddr pte level, w) ∧
      pa = pageAddress (s.leafEntry acc va pte level).size (s.leafEntry acc va pte level).ppn va ∧
      (t.tlb acc).head? = some (s.leafEntry acc va pte level) ∧
      (inRam s.cfg pteAddr.toNat 8 = true → t.ramValue pteAddr.toNat 8 = markedPte acc pte) := by
  rw [← (kept_walk h).same.cfg] at size
  obtain ⟨pteAddr, pte, level, w, w', leaf, marks, address, rfl⟩ := walk_ok h
  rw [fill, setTlb_cfg] at size
  refine ⟨pteAddr, pte, level, w, leaf, address.trans (leafEntry_address ..).symm, head_tlb_fill acc va _ size, fun ram => ?_⟩
  exact (ramValue_congr fun _ _ => byteAt_fill ..).trans (ramValue_marked leaf marks ram)

end

/-! ## Translation (R230, R242) -/

/-- The entry a lookup of va finds. -/
def lookup (s : State) (acc : Access) (va : Word) : Option TlbEntry :=
  (s.entries acc va).find? fun e => e.hits va (satpAsid s.csr.satp)

theorem hits_of_lookup {s : State} {acc : Access} {va : Word} {e : TlbEntry} (h : s.lookup acc va = some e) :
    e.hits va (satpAsid s.csr.satp) = true := by
  have hit := List.find?_some h
  exact hit

/-- The state after the lookup. -/
def looked (s : State) (acc : Access) (va : Word) : State := (s.setTlb acc (s.entries acc va)).useDraw

/-- No entry was found, or one with D = 0 for a store. -/
def NeedsWalk (s : State) (acc : Access) (va : Word) : Prop :=
  s.lookup acc va = none ∨ (acc = .store ∧ ∃ e, s.lookup acc va = some e ∧ e.d = false)

/-- The entry permits the access at the privilege it is checked at. -/
def permits (s : State) (acc : Access) (e : TlbEntry) : Bool := s.permitted acc (s.effPriv acc) e.r e.w e.x e.u

theorem sameCore_looked (s : State) (acc : Access) (va : Word) : SameCore s (s.looked acc va) :=
  (sameCore_setTlb ..).trans (sameCore_useDraw _)

theorem looked_mem (s : State) (acc : Access) (va : Word) : (s.looked acc va).mem = s.mem := by simp [looked]

/-- The walk after a lookup, as from the page number in satp. -/
theorem rootWalk_looked (s : State) (acc : Access) (p : Priv) (va : Word) : (s.looked acc va).rootWalk acc p va =
    (s.looked acc va).walkFrom 0 acc p va (BitVec.ofNat 64 (s.csr.satp.toNat % 2 ^ 44 * 4096)) 2 := by
  rw [rootWalk_eq, (sameCore_looked s acc va).csr]

theorem leafEntry_looked (s : State) (acc : Access) (va pte : Word) (level : Nat) :
    (s.looked acc va).leafEntry acc va pte level = s.leafEntry acc va pte level := by
  rw [leafEntry, (sameCore_looked s acc va).csr, leafEntry]

section
variable {s : State} {acc : Access} {va : Word}

/-- With no earlier tables to see, a miss walks the tables as they are. -/
theorem looked_miss (p : Priv) (now : acc = .fetch → s.walkLog = []) :
    (s.looked acc va).miss acc p va = (s.looked acc va).walk acc p va := by
  have log : (s.looked acc va).walkLog = s.walkLog := by simp [looked]
  unfold miss
  cases acc with
  | fetch => rw [log, now rfl, ite_self]
  | load | store => rfl

variable (on : satpMode s.csr.satp ≠ 0#4) (mode : s.effPriv acc ≠ .M) (canon : canonical va = true)
include on mode canon

theorem translate_missed (h : s.lookup acc va = none) :
    s.translate acc va = (s.looked acc va).miss acc (s.effPriv acc) va := by
  unfold lookup at h
  simp [translate, on, mode, canon, h, looked]

theorem translate_found {e : TlbEntry} (h : s.lookup acc va = some e) : s.translate acc va =
    if s.permits acc e = false then .raise acc.pageFault va
    else if acc = .store ∧ e.d = false then (s.looked acc va).miss acc (s.effPriv acc) va
    else .ok (pageAddress e.size e.ppn va) ((s.looked acc va).setTlb acc (e :: (s.entries acc va).erase e)) := by
  have permits : (s.looked acc va).permitted acc (s.effPriv acc) e.r e.w e.x e.u = s.permits acc e :=
    (sameCore_looked ..).permitted ..
  unfold lookup at h
  unfold looked at permits
  simp [translate, on, mode, canon, h, looked, permits]

theorem translate_walks (now : acc = .fetch → s.walkLog = [])
    (h : s.lookup acc va = none ∨ (acc = .store ∧ ∃ e, s.lookup acc va = some e ∧ s.permits acc e = true ∧ e.d = false)) :
    s.translate acc va = (s.looked acc va).walk acc (s.effPriv acc) va := by
  obtain missed | ⟨store, e, found, permits, unmarked⟩ := h
  · rw [translate_missed on mode canon missed, looked_miss _ now]
  · rw [translate_found on mode canon found, if_neg (by simp [permits]), if_pos ⟨store, unmarked⟩, looked_miss _ now]

/-- A translation that answers did so by an entry that permits the access, or by a walk. -/
theorem translate_ok_cases {pa : Word} {t : State} (now : acc = .fetch → s.walkLog = []) (h : s.translate acc va = .ok pa t) :
    (¬s.NeedsWalk acc va ∧ ∃ e, s.lookup acc va = some e ∧ s.permits acc e = true ∧ (acc = .store → e.d = true) ∧
        pa = pageAddress e.size e.ppn va ∧ t = (s.looked acc va).setTlb acc (e :: (s.entries acc va).erase e)) ∨
      (s.NeedsWalk acc va ∧ (s.looked acc va).walk acc (s.effPriv acc) va = .ok pa t) := by
  cases found : s.lookup acc va with
  | none =>
    rw [translate_missed on mode canon found, looked_miss _ now] at h
    exact .inr ⟨.inl found, h⟩
  | some e =>
    rw [translate_found on mode canon found] at h
    by_cases denied : s.permits acc e = false
    · rw [if_pos denied] at h
      cases h
    · rw [if_neg denied] at h
      by_cases unmarked : acc = .store ∧ e.d = false
      · rw [if_pos unmarked, looked_miss _ now] at h
        exact .inr ⟨.inr ⟨unmarked.1, e, found, unmarked.2⟩, h⟩
      · rw [if_neg unmarked] at h
        cases h
        exact .inl ⟨by simpa [NeedsWalk, found] using unmarked, e, rfl, by simpa using denied,
          fun store => by simpa [store] using unmarked, rfl, rfl⟩

end

theorem canonical_of_translate_ok {s t : State} {acc : Access} {va pa : Word} (on : satpMode s.csr.satp ≠ 0#4)
    (mode : s.effPriv acc ≠ .M) (h : s.translate acc va = .ok pa t) : canonical va = true := by
  rw [canonical_iff]
  by_contra noncanonical
  rw [translate_noncanonical on mode noncanonical] at h
  cases h

end State

/-- Settles O56: a hit changes no RAM, and a walk only the leaf it marks. -/
theorem translationFrame : Obligations.TranslationFrame := by
  intro s t acc va pa h
  refine ⟨(kept_translate h).same, fun off => ?_, fun now a outside => ?_⟩
  · rw [translate_off va off] at h
    cases h
    exact ⟨rfl, rfl⟩
  · by_cases off : satpMode s.csr.satp = 0#4 ∨ s.effPriv acc = .M
    · rw [translate_off va off] at h
      cases h
      rfl
    · obtain ⟨on, mode⟩ := not_or.mp off
      obtain ⟨-, e, -, -, -, -, rfl⟩ | ⟨needs, walked⟩ :=
        translate_ok_cases on mode (canonical_of_translate_ok on mode h) now h
      · exact byteAt_eq_of_mem ((setTlb_mem ..).trans (looked_mem ..)) a
      · obtain ⟨pteAddr, pte, level, w, w', leaf, marks, -, rfl⟩ := walk_ok walked
        have away : markedPte acc pte ≠ pte → a < pteAddr.toNat ∨ pteAddr.toNat + 8 ≤ a := by
          rw [markedPte_eq]
          exact outside needs pteAddr pte level w ((rootWalk_looked ..).symm.trans leaf)
        rw [byteAt_fill, marks.byteAt away]
        exact byteAt_eq_of_mem ((rootWalk_mem leaf).trans (looked_mem ..)) a

/-- Settles O55: an answer comes by an entry that permits the access or by a walk, whose leaf fills in one that
does; each clause on what is raised is the equation of that case. -/
theorem translatedAccessHasAPermittedEntry : Obligations.TranslatedAccessHasAPermittedEntry := by
  refine ⟨fun s t acc va pa now on mode size h => ?_, fun s acc va v e h => translate_raise h, fun s acc va on mode => ?_⟩
  · have canon := canonical_of_translate_ok on mode h
    refine ⟨(canonical_iff va).mp canon, ?_⟩
    obtain ⟨noWalk, e, found, permits, dirty, address, rfl⟩ | ⟨-, walked⟩ := translate_ok_cases on mode canon now h
    · refine ⟨⟨e, ?_, hits_of_lookup found, permits, dirty, address⟩, fun needs => absurd needs noWalk⟩
      rw [tlb_setTlb]
      exact List.mem_cons_self
    · have core := sameCore_looked s acc va
      obtain ⟨pteAddr, pte, level, w, leaf, address, head, held⟩ := walk_ok_leaves walked (by rwa [core.cfg])
      have permitted := leafEntry_permitted leaf
      rw [leafEntry_looked, core.permitted] at permitted
      rw [leafEntry_looked] at address head
      rw [core.cfg] at held
      refine ⟨⟨s.leafEntry acc va pte level, List.mem_of_head? head, TlbEntry.hits_ofLeaf canon .., permitted,
        leafEntry_dirty s va pte level, address⟩,
        fun _ => ⟨pteAddr, pte, level, w, (rootWalk_looked ..).symm.trans leaf, ?_, fun ram => ?_⟩⟩
      · exact head.trans (congrArg some (TlbEntry.ofLeaf_marked va _ acc pte (walkFrom_isLeaf leaf).1))
      · rw [← toNat_ramValue _ _ _ le_rfl, held ram, markedPte_eq]
  · dsimp only
    by_cases canon : canonical va = true
    · rw [if_pos ((canonical_iff va).mp canon)]
      refine ⟨fun e found => ⟨fun denied => ?_, fun permits dirty => ?_⟩, fun needs now => ?_⟩
      · rw [translate_found on mode canon found]
        exact if_pos denied
      · rw [translate_found on mode canon found, if_neg (by simp [State.permits, permits]),
          if_neg (fun ⟨store, clean⟩ => by simp [dirty store] at clean)]
        exact ⟨_, rfl⟩
      · rw [translate_walks on mode canon now needs]
        rw [← show s.looked acc va = (s.setTlb acc (s.entries acc va)).useDraw from rfl, ← rootWalk_looked]
        refine ⟨walk_pageFault, walk_accessFault, fun pteAddr pte level leaf => ?_⟩
        have found : (s.looked acc va).rootWalk acc (s.effPriv acc) va = (.leaf pteAddr pte level, _) := Prod.ext leaf rfl
        obtain ⟨w, -, eq⟩ := walk_leaf found
        exact ⟨walkFrom_busWrite found, _, ppn_eq_ofNat pte ▸ eq⟩
    · rw [if_neg ((canonical_iff va).not.mp canon)]
      exact translate_noncanonical on mode ((canonical_iff va).not.mp canon)

end Sys2Proof.Machine
end

section
/-! PROOFS. Lookups of the caches and mispredictions count once. -/
namespace Sys2Proof.Machine

namespace Uarch

/-! ## What an access leaves alone (R283, R290) -/

/-- v has the counts of level l that u has. -/
def SameCounts (l : Level) (u v : Uarch) : Prop :=
  (v.cache l).hits = (u.cache l).hits ∧ (v.cache l).misses = (u.cache l).misses

theorem SameCounts.of_cache {l : Level} {u v : Uarch} (h : v.cache l = u.cache l) : SameCounts l u v := by
  rw [SameCounts, h]
  exact ⟨rfl, rfl⟩

theorem SameCounts.trans {l : Level} {u v w : Uarch} (h : SameCounts l u v) (k : SameCounts l v w) : SameCounts l u w :=
  ⟨k.1.trans h.1, k.2.trans h.2⟩

section
variable {cfg : Config} {l k : Level} {tr : Word → Option Nat} {writeBack : Nat → Uarch → Uarch}

/-- A prefetch does nothing, or it installs a line and perhaps writes one back. -/
theorem prefetch_cases (cfg : Config) (l : Level) (tr : Word → Option Nat) (writeBack : Nat → Uarch → Uarch) (u : Uarch)
    (a : Word) : prefetch cfg l tr writeBack u a = u ∨ ∃ pa, let f := (u.fillLine (levelConfig cfg l) l pa .valid true).1
      prefetch cfg l tr writeBack u a = f ∨ ∃ victim, prefetch cfg l tr writeBack u a = writeBack victim f := by
  unfold prefetch
  split
  · exact .inl rfl
  · rename_i pa _
    dsimp only
    split
    · exact .inl rfl
    · refine .inr ⟨pa, ?_⟩
      split
      · exact .inl rfl
      · exact .inr ⟨_, rfl⟩

theorem prefetch_cache_other (other : k ≠ l) (below : ∀ a u, (writeBack a u).cache k = u.cache k) (u : Uarch) (a : Word) :
    (prefetch cfg l tr writeBack u a).cache k = u.cache k := by
  have filled (pa : Nat) := fillLine_cache_other u (levelConfig cfg l) pa .valid true other
  obtain eq | ⟨pa, eq | ⟨victim, eq⟩⟩ := prefetch_cases cfg l tr writeBack u a
  · rw [eq]
  · rw [eq, filled]
  · rw [eq, below, filled]

theorem prefetch_counts (below : ∀ a u, (writeBack a u).cache l = u.cache l) (u : Uarch) (a : Word) :
    SameCounts l u (prefetch cfg l tr writeBack u a) := by
  have filled (pa : Nat) : SameCounts l u _ := fillLine_counts u (levelConfig cfg l) l pa .valid true
  obtain eq | ⟨pa, eq | ⟨victim, eq⟩⟩ := prefetch_cases cfg l tr writeBack u a
  · exact .of_cache (by rw [eq])
  · exact eq ▸ filled pa
  · exact eq ▸ .trans (filled pa) (.of_cache (below ..))

theorem observed_cache_other (other : k ≠ l) (below : ∀ a u, (writeBack a u).cache k = u.cache k) (r : Request) (hit was : Bool)
    (u : Uarch) : (observed cfg l tr writeBack r hit was u).cache k = u.cache k := by
  unfold observed
  split
  · rfl
  · exact List.foldlRecOn (motive := fun v => v.cache k = u.cache k) _ _ (cache_setCache_other u _ other) fun v same a _ =>
      (prefetch_cache_other other below v a).trans same

theorem observed_counts (below : ∀ a u, (writeBack a u).cache l = u.cache l) (r : Request) (hit was : Bool) (u : Uarch) :
    SameCounts l u (observed cfg l tr writeBack r hit was u) := by
  unfold observed
  split
  · exact .of_cache rfl
  · refine List.foldlRecOn (motive := SameCounts l u) _ _ ?_ fun v same a _ => same.trans (prefetch_counts below v a)
    rw [SameCounts, cache_setCache]
    exact observe_counts ..

end

/-- What a dirty line that leaves level l does below it. -/
def writeBelow (cfg : Config) (tr : Word → Option Nat) (l : Level) (below : List Level) (a : Nat) (u : Uarch) : Uarch :=
  (access cfg tr below (levelConfig cfg l).lineBytes ⟨none, a, true⟩ u).2

/-- The state after a miss has had its line from below and installed it. -/
def refilled (cfg : Config) (tr : Word → Option Nat) (l : Level) (below : List Level) (r : Request) (u : Uarch) : Uarch :=
  let c := levelConfig cfg l
  ((access cfg tr below c.lineBytes { r with write := false } (u.count l false)).2.fillLine c l r.pa
    (if r.write then .dirty else .valid) false).1

section
variable (cfg : Config) (tr : Word → Option Nat) (l : Level) (below : List Level) (bytes : Nat) (r : Request) (u : Uarch)

/-- A lookup hits, and only the set changes before the prefetcher observes; or it misses, and the line is installed, with
perhaps a dirty one written back. -/
theorem access_cases :
    (∃ s was, ((u.setOf (levelConfig cfg l) l r.pa).hitWay (lineTag (levelConfig cfg l) r.pa)).isSome = true ∧
      (access cfg tr (l :: below) bytes r u).2 =
        observed cfg l tr (writeBelow cfg tr l below) r true was ((u.count l true).putSet (levelConfig cfg l) l r.pa s)) ∨
    (∃ v, ((u.setOf (levelConfig cfg l) l r.pa).hitWay (lineTag (levelConfig cfg l) r.pa)).isSome = false ∧
      (v = refilled cfg tr l below r u ∨ ∃ a, v = writeBelow cfg tr l below a (refilled cfg tr l below r u)) ∧
      (access cfg tr (l :: below) bytes r u).2 = observed cfg l tr (writeBelow cfg tr l below) r false false v) := by
  rw [access]
  dsimp only
  split
  · rename_i found
    exact .inl ⟨_, _, by rw [found]; rfl, rfl⟩
  · rename_i missed
    refine .inr ⟨_, by rw [missed]; rfl, ?_, rfl⟩
    split
    · exact .inl rfl
    · exact .inr ⟨_, rfl⟩

end

/-- An access changes no level that is not on its path. -/
theorem access_cache_other (cfg : Config) (tr : Word → Option Nat) {k : Level} {path : List Level} (h : k ∉ path) (bytes : Nat)
    (r : Request) (u : Uarch) : (access cfg tr path bytes r u).2.cache k = u.cache k := by
  induction path generalizing bytes r u with
  | nil => exact cache_dram ..
  | cons l below ih =>
    obtain ⟨other, h⟩ := not_or.mp (List.mem_cons.not.mp h)
    have written (a : Nat) (v : Uarch) : (writeBelow cfg tr l below a v).cache k = v.cache k := ih h ..
    have refill : (refilled cfg tr l below r u).cache k = u.cache k :=
      (fillLine_cache_other _ _ _ _ _ other).trans ((ih h ..).trans (count_cache_other u _ other))
    obtain ⟨s, was, -, eq⟩ | ⟨v, -, last, eq⟩ := access_cases cfg tr l below bytes r u
    · rw [eq, observed_cache_other other written, putSet_cache_other _ _ _ _ other, count_cache_other _ _ other]
    · rw [eq, observed_cache_other other written]
      obtain rfl | ⟨a, rfl⟩ := last
      · exact refill
      · exact (written ..).trans refill

/-- A lookup adds one to its level's hits or to its misses, whatever goes on below it and in its prefetcher. -/
theorem access_counts (cfg : Config) (tr : Word → Option Nat) {l : Level} {below : List Level} (h : l ∉ below) (bytes : Nat)
    (r : Request) (u : Uarch) : SameCounts l
      (u.count l ((u.setOf (levelConfig cfg l) l r.pa).hitWay (lineTag (levelConfig cfg l) r.pa)).isSome)
      (access cfg tr (l :: below) bytes r u).2 := by
  have written (a : Nat) (v : Uarch) : (writeBelow cfg tr l below a v).cache l = v.cache l := access_cache_other cfg tr h ..
  have refill : SameCounts l (u.count l false) (refilled cfg tr l below r u) :=
    .trans (.of_cache (access_cache_other cfg tr h ..)) (fillLine_counts ..)
  obtain ⟨s, was, hit, eq⟩ | ⟨v, miss, last, eq⟩ := access_cases cfg tr l below bytes r u
  · rw [eq, hit]
    exact .trans (putSet_counts ..) (observed_counts written ..)
  · rw [eq, miss]
    refine .trans ?_ (observed_counts written ..)
    obtain rfl | ⟨a, rfl⟩ := last
    · exact refill
    · exact refill.trans (.of_cache (written ..))

/-- A line hits exactly if there is one that is valid or dirty with the tag. -/
theorem hitWay_isSome (s : CacheSet) (tag : Nat) :
    (s.hitWay tag).isSome = s.lines.any fun l => l.state != .invalid && l.tag == tag := by
  rw [CacheSet.hitWay, List.findIdx?_isSome]

end Uarch

open Uarch

/-- Settles O58: by `access_counts` and `access_cache_other`, inductions along the path, and by the two outcomes of
a prediction. -/
theorem lookupsAndMispredictionsAreCounted : Obligations.LookupsAndMispredictionsAreCounted := by
  refine ⟨fun cfg tr l below bytes r u apart => ?_, fun s e out i untrapped decoded => ?_⟩
  · obtain ⟨hits, misses⟩ := access_counts cfg tr apart bytes r u
    rw [hitWay_isSome, count_cache] at hits misses
    refine ⟨hits.trans ?_, misses.trans ?_, fun k off => access_cache_other cfg tr off bytes r u⟩
    · split <;> simp [*]
    · split <;> simp [*]
  · by_cases right : out.branchActual = e.predNext <;> simp [State.resolve, untrapped, decoded, right]

end Sys2Proof.Machine
end

section
/-! PROOFS. Encoding and decoding: each undoes the other, on bits and on bytes; bits that are no instruction; and a compressed
instruction beside its expansion. -/
namespace Sys2Proof
open InstrField

/-! ## The bytes of a code (R161, R203, R300) -/

theorem decode32_of_decodeCode {w : BitVec 32} {i : Instr} (h : decodeCode (.word w) = .ok i) : decode32 w = some i := by
  rw [decodeCode] at h
  split at h <;> cases h
  assumption

theorem decode16_of_decodeCode {p : BitVec 16} {i : Instr} (h : decodeCode (.half p) = .ok i) : decode16 p = some i := by
  rw [decodeCode] at h
  split at h <;> cases h
  assumption

theorem decode_ok {bs rest : List Byte} {c : Code} {i : Instr} (front : splitCode bs = .ok (c, rest))
    (decodes : decodeCode c = .ok i) : decode bs = .ok (i, rest) := by
  simp only [decode, front, decodes]

theorem split_of_decode {bs rest : List Byte} {i : Instr} (h : decode bs = .ok (i, rest)) :
    ∃ c, splitCode bs = .ok (c, rest) ∧ decodeCode c = .ok i := by
  unfold decode at h
  split at h
  case h_1 => cases h
  case h_2 c _ front =>
    split at h <;> cases h
    exact ⟨c, front, ‹_›⟩

theorem half_of_bytes (p : BitVec 16) : p.extractLsb' 8 8 ++ p.extractLsb' 0 8 = p :=
  (BitVec.extractLsb'_append_extractLsb'_eq_extractLsb' rfl).trans BitVec.extractLsb'_eq_self

theorem word_of_bytes (w : BitVec 32) :
    w.extractLsb' 24 8 ++ w.extractLsb' 16 8 ++ (w.extractLsb' 8 8 ++ w.extractLsb' 0 8) = w := by
  ext i hi
  grind

/-- Bits that decode are what is split off a byte sequence they begin: their lowest two bits give their size (R203, R300). -/
theorem splitCode_bytes {c : Code} {i : Instr} (h : decodeCode c = .ok i) (rest : List Byte) :
    splitCode (c.bytes ++ rest) = .ok (c, rest) := by
  cases c with
  | half p =>
    have low : (p.extractLsb' 0 8).extractLsb' 0 2 ≠ 0b11#2 := by
      rw [BitVec.extractLsb'_extractLsb'_of_le (by decide)]
      exact decode16_low (decode16_of_decodeCode h)
    simp only [Code.bytes, List.cons_append, List.nil_append, splitCode, low, if_false, half_of_bytes]
  | word w =>
    have low : (w.extractLsb' 0 8).extractLsb' 0 2 = 0b11#2 := by
      rw [BitVec.extractLsb'_extractLsb'_of_le (by decide)]
      exact decode32_low (decode32_of_decodeCode h)
    simp only [Code.bytes, List.cons_append, List.nil_append, splitCode, low, if_true, word_of_bytes]

theorem half_bytes (b0 b1 : Byte) : (Code.half (b1 ++ b0)).bytes = [b0, b1] := by
  simp only [Code.bytes, BitVec.extractLsb'_append_eq_ite]
  simp

theorem word_bytes (b0 b1 b2 b3 : Byte) : (Code.word (b3 ++ b2 ++ (b1 ++ b0))).bytes = [b0, b1, b2, b3] := by
  simp only [Code.bytes, BitVec.extractLsb'_append_eq_ite]
  simp

/-- What is split off has the bytes it was put together from. -/
theorem eq_bytes_of_splitCode {bs rest : List Byte} {c : Code} (h : splitCode bs = .ok (c, rest)) : bs = c.bytes ++ rest := by
  unfold splitCode at h
  (repeat' split at h) <;> cases h
  · rw [word_bytes]
    rfl
  · rw [half_bytes]
    rfl

section
variable {w : BitVec 32} {p : BitVec 16} {i : Instr}

/-! ## Words: encoding what was decoded

A word is built from the fields of its format (R305 to R316). Those the decoder reads are the instruction's operands, and the
others it has found to be the fixed bits of the row; so each proof names the format and compares field by field. -/

/-- OP-IMM: the shifts hold a 6-bit amount, the others an I-immediate. -/
theorem encode_of_decodeOpImm (op : opcode w = 0x13#7) (h : decodeOpImm w = some i) : encode i = .word w := by
  unfold decodeOpImm at h
  split at h
  case h_7 | h_8 =>
    rw [← shType_fields w]
    split at h <;> cases h <;> simp [encode, *]
  all_goals
    rw [← iType_fields w]
    cases h
    simp [encode, *]

/-- OP-IMM-32: ADDIW holds an I-immediate, and the shifts a 5-bit amount where rs2 stands. -/
theorem encode_of_decodeOpImm32 (op : opcode w = 0x1B#7) (h : decodeOpImm32 w = some i) : encode i = .word w := by
  unfold decodeOpImm32 at h
  split at h
  case h_1 =>
    rw [← iType_fields w]
    cases h
    simp [encode, *]
  all_goals
    rw [← rType_fields w]
    (repeat' split at h) <;> cases h <;> simp [encode, *]

theorem encode_of_decodeFma (h : decodeFma w = some i) : encode i = .word w := by
  rw [← r4Type_fields w]
  unfold decodeFma at h
  split at h <;> cases h <;> simp [encode, *]

theorem encode_of_decodeSystem (op : opcode w = 0x73#7) (h : decodeSystem w = some i) : encode i = .word w := by
  unfold decodeSystem at h
  split at h
  case h_7 =>
    rw [← rType_fields w]
    (repeat' split at h) <;> cases h <;> simp [encode, *]
  all_goals
    rw [← iType_fields w]
    cases h <;> simp [encode, *]

theorem encode_of_decodeMiscMem (op : opcode w = 0xF#7) (h : decodeMiscMem w = some i) : encode i = .word w := by
  unfold decodeMiscMem at h
  split at h <;> cases h
  · rw [← fenceType_fields w]
    simp [encode, *]
  · rw [← iType_fields w]
    simp [encode, *]

/-- The cases are the major opcodes, by format; an opcode of two formats has its own lemma above. -/
theorem encode_of_decode32 (h : decode32 w = some i) : encode i = .word w := by
  unfold decode32 at h
  split at h
  case h_1 | h_2 | h_3 =>  -- LUI, AUIPC, JAL
    rw [← uType_fields w]
    cases h
    simp [encode, *]
  case h_4 =>  -- JALR
    rw [← iType_fields w]
    split at h <;> cases h
    simp [encode, *]
  case h_6 | h_13 =>  -- LOAD, LOAD-FP
    rw [← iType_fields w]
    simp only [decodeLoad, decodeLoadFp] at h
    split at h <;> cases h <;> simp [encode, *]
  case h_5 | h_7 | h_10 | h_11 | h_14 | h_19 =>  -- BRANCH, STORE, OP, OP-32, STORE-FP, OP-FP
    rw [← rType_fields w]
    simp only [decodeBranch, decodeStore, decodeOp, decodeOp32, decodeStoreFp, decodeOpFp] at h
    (repeat' split at h) <;> cases h <;> simp [encode, *]
  case h_12 =>  -- AMO
    rw [← amoType_fields w]
    unfold decodeAmo at h
    (repeat' split at h) <;> cases h <;> simp [encode, *]
  case h_15 | h_16 | h_17 | h_18 =>  -- MADD, MSUB, NMSUB, NMADD
    exact encode_of_decodeFma h
  case h_8 op => exact encode_of_decodeOpImm op h
  case h_9 op => exact encode_of_decodeOpImm32 op h
  case h_20 op => exact encode_of_decodeSystem op h
  case h_21 op => exact encode_of_decodeMiscMem op h
  case h_22 => cases h

/-! ## Parcels: encoding what was decoded (R327, R741)

As for words, by quadrant. The last row of a `match` on a field leaves the field's last value, which its bits need. -/

theorem eq_three_of_ne {f : BitVec 2} (n0 : f ≠ 0#2) (n1 : f ≠ 1#2) (n2 : f ≠ 2#2) : f = 3#2 := by bv_omega
theorem eq_seven_of_ne {f : BitVec 3} (n0 : f ≠ 0#3) (n1 : f ≠ 1#3) (n2 : f ≠ 2#3) (n3 : f ≠ 3#3) (n4 : f ≠ 4#3)
    (n5 : f ≠ 5#3) (n6 : f ≠ 6#3) : f = 7#3 := by bv_omega

theorem encode_of_decodeQ0 (op : cquadrant p = 0b00#2) (h : decodeQ0 p = some i) : encode i = .half p := by
  unfold decodeQ0 at h
  split at h
  case h_1 =>
    rw [← ciwType_fields p]
    split at h <;> cases h
    simp [encode, *]
  all_goals
    rw [← clType_fields p]
    cases h <;> simp [encode, *]

theorem encode_of_decodeQ1Alu (op : cquadrant p = 0b01#2) (f3 : cfunct3 p = 0b100#3) (h : decodeQ1Alu p = some i) :
    encode i = .half p := by
  unfold decodeQ1Alu at h
  split at h
  case h_4 n0 n1 n2 =>
    have group : c11_10 p = 0b11#2 := eq_three_of_ne n0 n1 n2
    rw [← caType_fields p]
    split at h <;> cases h <;> simp [encode, *]
  all_goals
    rw [← cbType_fields p]
    cases h
    simp [encode, *]

theorem encode_of_decodeQ1 (op : cquadrant p = 0b01#2) (h : decodeQ1 p = some i) : encode i = .half p := by
  unfold decodeQ1 at h
  split at h
  case h_1 | h_2 | h_3 | h_4 =>
    rw [← ciType_fields p]
    (repeat' split at h) <;> cases h <;> simp [encode, *]
  case h_5 f3 => exact encode_of_decodeQ1Alu op f3 h
  case h_6 =>
    rw [← cjType_fields p]
    cases h
    simp [encode, *]
  case h_7 =>
    rw [← cbrType_fields p]
    cases h
    simp [encode, *]
  case h_8 n0 n1 n2 n3 n4 n5 n6 =>
    have f3 : cfunct3 p = 0b111#3 := eq_seven_of_ne n0 n1 n2 n3 n4 n5 n6
    rw [← cbrType_fields p]
    cases h
    simp [encode, *]

theorem encode_of_decodeQ2Jump (op : cquadrant p = 0b10#2) (f3 : cfunct3 p = 0b100#3) (h : decodeQ2Jump p = some i) :
    encode i = .half p := by
  rw [← ciType_fields p]
  unfold decodeQ2Jump at h
  split at h
  case isTrue =>
    (repeat' split at h) <;> cases h <;> simp [encode, *]
  case isFalse =>
    have b12 : c12 p = 1#1 := by bv_omega
    (repeat' split at h) <;> cases h <;> simp [encode, *]

theorem encode_of_decodeQ2 (op : cquadrant p = 0b10#2) (h : decodeQ2 p = some i) : encode i = .half p := by
  unfold decodeQ2 at h
  split at h
  case h_1 | h_2 | h_3 | h_4 =>
    rw [← ciType_fields p]
    (repeat' split at h) <;> cases h
    simp [encode, *]
  case h_5 f3 => exact encode_of_decodeQ2Jump op f3 h
  case h_6 | h_7 =>
    rw [← cssType_fields p]
    cases h
    simp [encode, *]
  case h_8 n0 n1 n2 n3 n4 n5 n6 =>
    have f3 : cfunct3 p = 0b111#3 := eq_seven_of_ne n0 n1 n2 n3 n4 n5 n6
    rw [← cssType_fields p]
    cases h
    simp [encode, *]

theorem encode_of_decode16 (h : decode16 p = some i) : encode i = .half p := by
  unfold decode16 at h
  split at h
  case h_1 op => exact encode_of_decodeQ0 op h
  case h_2 op => exact encode_of_decodeQ1 op h
  case h_3 op => exact encode_of_decodeQ2 op h
  case h_4 => cases h

theorem encode_of_decodeCode {c : Code} (h : decodeCode c = .ok i) : encode i = c := by
  cases c with
  | half p => exact encode_of_decode16 (decode16_of_decodeCode h)
  | word w => exact encode_of_decode32 (decode32_of_decodeCode h)

end

/-! ## Words of no major opcode -/

/-- The major opcodes of 32-bit instructions (R329). -/
def majorOpcodes : List (BitVec 7) :=
  [0x37#7, 0x17#7, 0x6F#7, 0x67#7, 0x63#7, 0x3#7, 0x23#7, 0x13#7, 0x1B#7, 0x33#7, 0x3B#7, 0x2F#7, 0x7#7, 0x27#7, 0x43#7, 0x47#7,
    0x4B#7, 0x4F#7, 0x53#7, 0x73#7, 0xF#7]

theorem opcode_mem_of_decode32 {w : BitVec 32} {i : Instr} (h : decode32 w = some i) : opcode w ∈ majorOpcodes := by
  unfold decode32 at h
  split at h
  case h_22 => cases h
  all_goals
    rename_i known
    rw [known]
    decide

theorem decodeCode_unknown_opcode {w : BitVec 32} (h : opcode w ∉ majorOpcodes) : ∃ e, decodeCode (.word w) = .error e := by
  rw [decodeCode]
  split
  case h_1 known => exact absurd (opcode_mem_of_decode32 known) h
  case h_2 => exact ⟨_, rfl⟩

/-- No major opcode is a custom one, and none begins a longer instruction (R330, R334). -/
theorem majorOpcodes_not_custom : ∀ op ∈ majorOpcodes, ¬(op = 0b0001011#7 ∨ op = 0b0101011#7 ∨ op = 0b1011011#7 ∨
    op = 0b1111011#7 ∨ op.extractLsb' 0 5 = 0b11111#5) := by decide

/-! ## The obligations on bits -/

/-- Settles O1: the bytes are split off as the bits they are of, and those decode to the instruction they encode. -/
theorem decodeReadsBackEveryEncoding : Obligations.DecodeReadsBackEveryEncoding := by
  intro i rest wf
  have decodes := Laws.Encoding.decodeCode_encode wf
  exact decode_ok (splitCode_bytes decodes rest) decodes

/-- Settles O2: the bits at the front decode to the instruction, so they are its encoding. -/
theorem decodedBytesAreTheEncoding : Obligations.DecodedBytesAreTheEncoding := by
  intro bs rest i h
  obtain ⟨c, front, decodes⟩ := split_of_decode h
  refine ⟨wellFormed_of_decodeCode decodes, ?_⟩
  rw [encodeBytes, encode_of_decodeCode decodes]
  exact eq_bytes_of_splitCode front

namespace Machine

open State

theorem State.execCode_rejected (s : State) {c : Code} {e : Reject} (h : decodeCode c = .error e) :
    s.execCode c = s.illegal c.raw := by
  rw [execCode, h]

/-- Settles O4: the two fixed patterns are evaluated; a custom or long word has no major opcode the decoder knows. -/
theorem illegalBitsTrap : Obligations.IllegalBitsTrap := by
  refine ⟨rfl, ⟨_, rfl⟩, fun w h => decodeCode_unknown_opcode fun known => ?_, fun s c e h => s.execCode_rejected h⟩
  have low : (opcode w).extractLsb' 0 5 = w.extractLsb' 0 5 := BitVec.extractLsb'_extractLsb'_of_le (by decide)
  rw [← low] at h
  exact majorOpcodes_not_custom _ known h

/-! ## Compressed instructions and their expansions (R740) -/

theorem sext_signExtend {w v : Nat} (imm : BitVec w) (h : w ≤ v) (hv : v ≤ 64) : sext (imm.signExtend v) = sext imm := by
  apply BitVec.eq_of_toInt_eq
  rw [sext, sext, BitVec.toInt_signExtend_of_le hv, BitVec.toInt_signExtend_of_le h, BitVec.toInt_signExtend_of_le (h.trans hv)]

theorem upperImm_signExtend {w v : Nat} (imm : BitVec w) (h : w ≤ v) (hv : v ≤ 52) :
    upperImm (imm.signExtend v) = upperImm imm := by
  apply BitVec.eq_of_toInt_eq
  rw [upperImm, upperImm, sext, sext, BitVec.toInt_signExtend_of_le (by omega), BitVec.toInt_signExtend_of_le (by omega),
    BitVec.toInt_append_zero, BitVec.toInt_append_zero, BitVec.toInt_signExtend_of_le h]

/-- `short` answers as `long` does where that one retires, but goes on 2 bytes after the instruction. -/
structure ShortForm (s : State) (long short : Result) : Prop where
  retires : ∀ t, long = .next t → t.atBoundary = true → short = .next { t with pc := s.pc + 2#64 }

namespace ShortForm
variable {s : State}

theorem result {rd : Reg} {v v' : Word} (h : v = v') : ShortForm s (s.result rd v 4#64) (s.result rd v' 2#64) := by
  subst h
  constructor
  rintro _ ⟨⟩ -
  rfl

theorem raiseExc (e : Exc) (v : Word) (r : Result) : ShortForm s (s.raiseExc e v) r :=
  ⟨fun _ h retired => absurd retired (not_retired_of_raiseExc h)⟩

/-- An access, and then the rest of the instruction: the size is used only where it retires. -/
theorem accesses {α : Type} (r : Res α) (finish : α → State → State) :
    ShortForm s (s.accessThen r fun a t => (finish a t).retireTo (s.pc + 4#64))
      (s.accessThen r fun a t => (finish a t).retireTo (s.pc + 2#64)) := by
  cases r with
  | ok a t =>
    constructor
    rintro _ ⟨⟩ -
    rfl
  | raise e v => exact raiseExc e v _

theorem loadX {ea ea' : Word} (h : ea = ea') (rd : Reg) (n : Nat) (extend : Word → Word) :
    ShortForm s (s.loadX rd ea n extend 4#64) (s.loadX rd ea' n extend 2#64) :=
  h ▸ accesses (s.memRead ea n) fun v t => t.writeX rd (extend v.1)

theorem loadF {ea ea' : Word} (h : ea = ea') (rd : Reg) (n : Nat) (make : Word → Word) :
    ShortForm s (s.loadF rd ea n make 4#64) (s.loadF rd ea' n make 2#64) :=
  h ▸ accesses (s.memRead ea n) fun v t => t.writeF rd (make v.1)

theorem store {ea ea' : Word} (h : ea = ea') (n : Nat) (v : Word) : ShortForm s (s.store ea n v 4#64) (s.store ea' n v 2#64) :=
  h ▸ accesses (s.memWrite ea n v) fun _ t => t

theorem fpGuard {long short : Result} (h : ShortForm s long short) (bits bits' : Word) :
    ShortForm s (s.fpGuard bits long) (s.fpGuard bits' short) := by
  unfold State.fpGuard
  split
  · exact h
  · exact raiseExc _ _ _

end ShortForm

/-- Every compressed meaning that transfers no control is its expansion's, with a size of 2: the same shape with the same value or
the same address, its immediate extended at once or in two steps. C.EBREAK and its expansion never retire. -/
theorem exec_expansion {c i : Instr} (s : State) (h : expansion c = some i) (branch : instrClass c ≠ .branch)
    (jump : instrClass c ≠ .jump) : ShortForm s (exec i s) (exec c s) := by
  have addr {w : Nat} (rs1 : Reg) (imm : BitVec w) (hw : w < 12) := effAddr_setWidth s rs1 imm hw
  unfold exec
  cases c with
  | cSrli | cSrai | cSub | cXor | cOr | cAnd | cSubw | cAddw | cSlli | cAdd =>
    cases h
    exact .result rfl
  | cAddi4spn =>
    cases h
    exact .result (by rw [sext_setWidth _ (by decide)])
  | cAddi | cAddiw | cAddi16sp | cAndi =>
    cases h
    exact .result (by rw [sext_signExtend _ (by decide) (by decide)])
  | cLi =>
    cases h
    exact .result (by rw [readX_zero, BitVec.zero_add, sext_signExtend _ (by decide) (by decide)])
  | cLui =>
    cases h
    exact .result (upperImm_signExtend _ (by decide) (by decide))
  | cMv =>
    cases h
    exact .result (by rw [readX_zero, BitVec.zero_add])
  | cNop =>
    cases h
    exact .result (rd := 0#5) rfl
  | cLw | cLd | cLwsp | cLdsp =>
    cases h
    exact .loadX (addr _ _ (by decide)) ..
  | cSw | cSd | cSwsp | cSdsp =>
    cases h
    exact .store (addr _ _ (by decide)) ..
  | cFld | cFldsp =>
    cases h
    exact .fpGuard (.loadF (addr _ _ (by decide)) ..) ..
  | cFsd | cFsdsp =>
    cases h
    exact .fpGuard (.store (addr _ _ (by decide)) ..) ..
  | cEbreak =>
    cases h
    exact .raiseExc ..
  | cBeqz | cBnez => exact absurd rfl branch
  | cJ | cJr | cJalr => exact absurd rfl jump
  | _ => cases h

/-- Settles O19: `exec_expansion`, read off shape by shape. -/
theorem compressedActsAsItsExpansion : Obligations.CompressedActsAsItsExpansion :=
  fun _ _ s t h branch jump => (exec_expansion s h branch jump).retires t

end Machine
end Sys2Proof
end

section
/-! PROOFS. Integer computational instructions: the value each gives, as an integer, and the fixed words of the encodings. -/
namespace Sys2Proof

/-- Settles O3: each word is a literal, and the decoder is evaluated on it. -/
theorem wordsOfTheSpecDecode : Obligations.WordsOfTheSpecDecode :=
  ⟨rfl, rfl, rfl, rfl, rfl, rfl, rfl, rfl, rfl, rfl, rfl, rfl⟩

namespace Machine

/-- An instruction whose meaning is a result completes with any form of its value. -/
theorem completesX_of_eq {i : Instr} {s : State} {rd : Reg} {v v' size : Word} (means : exec i s = s.result rd v size)
    (value : v = v') : CompletesX i s rd v' size :=
  value ▸ means

/-! ## Immediates (R320 to R325) -/

theorem sext_eq_ofInt {w : Nat} (imm : BitVec w) : sext imm = BitVec.ofInt 64 imm.toInt := rfl

theorem upperImm_eq_ofInt {w : Nat} (imm : BitVec w) : upperImm imm = BitVec.ofInt 64 (imm.toInt * 4096) := by
  rw [upperImm, sext_eq_ofInt, BitVec.toInt_append_zero, Int.mul_comm]
  rfl

/-- A shift amount given as a field of w bits is what the shift reads back of it. -/
theorem toNat_zext_mod {w : Nat} (n : BitVec w) (h : w ≤ 64) : (zext n).toNat % 2 ^ w = n.toNat := by
  rw [zext, BitVec.toNat_setWidth_of_le h, Nat.mod_eq_of_lt n.isLt]

/-! ## Sums and differences -/

theorem add_eq_ofInt (a b : Word) : a + b = BitVec.ofInt 64 (a.toInt + b.toInt) := by
  rw [BitVec.ofInt_add, BitVec.ofInt_toInt, BitVec.ofInt_toInt]

theorem sub_eq_ofInt (a b : Word) : a - b = BitVec.ofInt 64 (a.toInt - b.toInt) := by
  apply BitVec.eq_of_toInt_eq
  rw [BitVec.toInt_sub, BitVec.toInt_ofInt]

theorem add_sext_eq_ofInt {w : Nat} (a : Word) (imm : BitVec w) :
    a + sext imm = BitVec.ofInt 64 (a.toInt + imm.toInt) := by
  rw [sext_eq_ofInt, BitVec.ofInt_add, BitVec.ofInt_toInt]

theorem add_upperImm_eq_ofInt {w : Nat} (a : Word) (imm : BitVec w) :
    a + upperImm imm = BitVec.ofInt 64 (a.toInt + imm.toInt * 4096) := by
  rw [upperImm_eq_ofInt, BitVec.ofInt_add, BitVec.ofInt_toInt]

/-! ## Shifts (R402)

The shifted bits are the product or the floor quotient at every width; the model's shifts read the amount n from the low bits of
their second operand. -/

section
variable {w : Nat} (v : BitVec w) (n : Nat)

theorem shiftLeft_eq_ofNat : v <<< n = BitVec.ofNat w (v.toNat * 2 ^ n) := by
  apply BitVec.eq_of_toNat_eq
  rw [BitVec.toNat_shiftLeft, Nat.shiftLeft_eq, BitVec.toNat_ofNat]

theorem ushiftRight_eq_ofNat : v >>> n = BitVec.ofNat w (v.toNat / 2 ^ n) := by
  rw [← Nat.shiftRight_eq_div_pow, ← BitVec.toNat_ushiftRight, BitVec.ofNat_toNat, BitVec.setWidth_eq]

theorem sshiftRight_eq_ofInt : v.sshiftRight n = BitVec.ofInt w (v.toInt / 2 ^ n) := by
  rw [BitVec.sshiftRight, Int.shiftRight_eq_div_pow]
  norm_cast

end

section
variable {b : Word} {n : Nat} (a : Word)

theorem shl64_eq_ofNat (h : b.toNat % 64 = n) : shl64 a b = BitVec.ofNat 64 (a.toNat * 2 ^ n) := by
  subst h
  exact shiftLeft_eq_ofNat a _

theorem shr64_eq_ofNat (h : b.toNat % 64 = n) : shr64 a b = BitVec.ofNat 64 (a.toNat / 2 ^ n) := by
  subst h
  exact ushiftRight_eq_ofNat a _

theorem sar64_eq_ofInt (h : b.toNat % 64 = n) : sar64 a b = BitVec.ofInt 64 (a.toInt / 2 ^ n) := by
  subst h
  exact sshiftRight_eq_ofInt a _

end

/-! ## Comparisons (R406, R407) -/

theorem boolWord_slt (a b : Word) : boolWord (a.slt b) = if a.toInt < b.toInt then 1#64 else 0#64 := by
  simp only [boolWord, BitVec.slt_iff_toInt_lt]

theorem boolWord_ult (a b : Word) : boolWord (a.ult b) = if a.toNat < b.toNat then 1#64 else 0#64 := by
  simp only [boolWord, BitVec.ult_iff_lt, BitVec.lt_def]

theorem boolWord_slt_sext (a : Word) {w : Nat} (imm : BitVec w) (h : w ≤ 64) :
    boolWord (a.slt (sext imm)) = if a.toInt < imm.toInt then 1#64 else 0#64 := by
  rw [boolWord_slt, sext, BitVec.toInt_signExtend_of_le h]

/-! ## Word operations (R401) -/

theorem wordResult_ofInt (z : Int) : wordResult (BitVec.ofInt 32 z) = BitVec.ofInt 64 (z.bmod (2 ^ 32)) := by
  rw [wordResult, BitVec.signExtend, BitVec.toInt_ofInt]

theorem wordResult_ofNat (n : Nat) : wordResult (BitVec.ofNat 32 n) = BitVec.ofInt 64 ((n : Int).bmod (2 ^ 32)) := by
  rw [← wordResult_ofInt, BitVec.ofInt_natCast]

theorem toNat_low32 (a : Word) : (low32 a).toNat = a.toNat % 2 ^ 32 := BitVec.extractLsb'_toNat ..

theorem low32_ofInt (z : Int) : low32 (BitVec.ofInt 64 z) = BitVec.ofInt 32 z := by
  apply BitVec.eq_of_toNat_eq
  rw [toNat_low32, BitVec.toNat_ofInt, BitVec.toNat_ofInt]
  omega

/-- What the word above the low one contributes to a left shift is a multiple of 2^32. -/
theorem low32_shiftLeft (a : Word) (n : Nat) : low32 a <<< n = BitVec.ofNat 32 (a.toNat * 2 ^ n) := by
  rw [shiftLeft_eq_ofNat, toNat_low32, ← BitVec.toNat_inj, BitVec.toNat_ofNat, BitVec.toNat_ofNat, Nat.mod_mul_mod]

theorem toInt_low32 (a : Word) : (low32 a).toInt = a.toInt.bmod (2 ^ 32) := by
  rw [← BitVec.toInt_ofInt, ← low32_ofInt, BitVec.ofInt_toInt]

section
variable {b : Word} {n : Nat} (a : Word)

theorem add32_eq_ofInt (b : Word) : add32 a b = BitVec.ofInt 64 ((a.toInt + b.toInt).bmod (2 ^ 32)) := by
  rw [add32, add_eq_ofInt, low32_ofInt, wordResult_ofInt]

theorem add32_sext_eq_ofInt {w : Nat} (imm : BitVec w) :
    add32 a (sext imm) = BitVec.ofInt 64 ((a.toInt + imm.toInt).bmod (2 ^ 32)) := by
  rw [add32, add_sext_eq_ofInt, low32_ofInt, wordResult_ofInt]

theorem sub32_eq_ofInt (b : Word) : sub32 a b = BitVec.ofInt 64 ((a.toInt - b.toInt).bmod (2 ^ 32)) := by
  rw [sub32, sub_eq_ofInt, low32_ofInt, wordResult_ofInt]

theorem shl32_eq_ofInt (h : b.toNat % 32 = n) : shl32 a b = BitVec.ofInt 64 ((a.toNat * 2 ^ n : Int).bmod (2 ^ 32)) := by
  subst h
  rw [shl32, low32_shiftLeft, wordResult_ofNat]
  push_cast
  rfl

theorem shr32_eq_ofInt (h : b.toNat % 32 = n) :
    shr32 a b = BitVec.ofInt 64 ((a.toNat % 2 ^ 32 / 2 ^ n : Int).bmod (2 ^ 32)) := by
  subst h
  rw [shr32, ushiftRight_eq_ofNat, toNat_low32, wordResult_ofNat]
  push_cast
  rfl

theorem sar32_eq_ofInt (h : b.toNat % 32 = n) :
    sar32 a b = BitVec.ofInt 64 ((a.toInt.bmod (2 ^ 32) / 2 ^ n).bmod (2 ^ 32)) := by
  subst h
  rw [sar32, sshiftRight_eq_ofInt, toInt_low32, wordResult_ofInt]
  rfl

end

/-! ## The obligations -/

/-- Settles O12: every meaning is one sum, difference or bitwise operation. -/
theorem addSubtractLogicResults : Obligations.AddSubtractLogicResults := by
  intro s rd rs1 rs2 imm u a b
  refine ⟨?lui, ?auipc, ?addi, ?xori, ?ori, ?andi, ?add, ?sub, ?xor, ?or, ?and⟩
  case lui => exact completesX_of_eq rfl (upperImm_eq_ofInt u)
  case auipc => exact completesX_of_eq rfl (add_upperImm_eq_ofInt s.pc u)
  case addi => exact completesX_of_eq rfl (add_sext_eq_ofInt a imm)
  case add => exact completesX_of_eq rfl (add_eq_ofInt a b)
  case sub => exact completesX_of_eq rfl (sub_eq_ofInt a b)
  case xori | ori | andi | xor | or | and => rfl

/-- Settles O13: an amount given as an immediate is what the shift reads back of it. -/
theorem shiftAndCompareResults : Obligations.ShiftAndCompareResults := by
  constructor
  · intro s rd rs1 rs2 sh a n
    have amount : (zext sh).toNat % 64 = sh.toNat := toNat_zext_mod sh (by decide)
    exact ⟨completesX_of_eq rfl (shl64_eq_ofNat a amount), completesX_of_eq rfl (shr64_eq_ofNat a amount),
      completesX_of_eq rfl (sar64_eq_ofInt a amount), completesX_of_eq rfl (shl64_eq_ofNat a rfl),
      completesX_of_eq rfl (shr64_eq_ofNat a rfl), completesX_of_eq rfl (sar64_eq_ofInt a rfl)⟩
  · intro s rd rs1 rs2 imm a b
    exact ⟨completesX_of_eq rfl (boolWord_slt_sext a imm (by decide)), completesX_of_eq rfl (boolWord_ult a (sext imm)),
      completesX_of_eq rfl (boolWord_slt a b), completesX_of_eq rfl (boolWord_ult a b)⟩

/-- Settles O14: each value is the word result of an integer, which only counts modulo 2^32. -/
theorem wordResults : Obligations.WordResults := by
  intro s rd rs1 rs2 imm sh a b n word
  have amount : (zext sh).toNat % 32 = sh.toNat := toNat_zext_mod sh (by decide)
  refine ⟨?addiw, ?slliw, ?srliw, ?sraiw, ?addw, ?subw, ?sllw, ?srlw, ?sraw⟩
  case addiw => exact completesX_of_eq rfl (add32_sext_eq_ofInt a imm)
  case slliw => exact completesX_of_eq rfl (shl32_eq_ofInt a amount)
  case srliw => exact completesX_of_eq rfl (shr32_eq_ofInt a amount)
  case sraiw => exact completesX_of_eq rfl (sar32_eq_ofInt a amount)
  case addw => exact completesX_of_eq rfl (add32_eq_ofInt a b)
  case subw => exact completesX_of_eq rfl (sub32_eq_ofInt a b)
  case sllw => exact completesX_of_eq rfl (shl32_eq_ofInt a rfl)
  case srlw => exact completesX_of_eq rfl (shr32_eq_ofInt a rfl)
  case sraw => exact completesX_of_eq rfl (sar32_eq_ofInt a rfl)

end Machine
end Sys2Proof
end

section
/-! PROOFS. Control transfers (spec/41_control.md): where each goes, by the integers in its registers. -/
namespace Sys2Proof.Machine

/-! ## Targets (R471, R474) -/

/-- Bit 0 of the sum is cleared by rounding it down to an even number. -/
theorem State.jalrTarget_eq_ofNat (s : State) (rs1 : Reg) {w : Nat} (imm : BitVec w) : s.jalrTarget rs1 (sext imm) =
    BitVec.ofNat 64 ((BitVec.ofInt 64 ((s.readX rs1).toInt + imm.toInt)).toNat / 2 * 2) := by
  rw [State.jalrTarget, clearBit0_eq_ofNat, add_sext_eq_ofInt]

theorem State.branch_taken (s : State) {w : Nat} (imm : BitVec w) (size : Word) :
    s.branch true (sext imm) size = .next (s.retireTo (BitVec.ofInt 64 (s.pc.toInt + imm.toInt))) := by
  rw [← add_sext_eq_ofInt]
  rfl

theorem State.branch_not_taken (s : State) (offset size : Word) :
    s.branch false offset size = .next (s.retireTo (BitVec.ofInt 64 (s.pc.toInt + size.toInt))) := by
  rw [← add_eq_ofInt]
  rfl

/-! ## Decisions (R475 to R480)

What the Boolean of each branch says of its operands, as integers. -/

section
variable (a b : Word)

theorem beq_iff_toInt_eq : (a == b) = true ↔ a.toInt = b.toInt := beq_iff_eq.trans BitVec.toInt_inj.symm

theorem bne_iff_toInt_ne : (a != b) = true ↔ a.toInt ≠ b.toInt := bne_iff_ne.trans BitVec.toInt_ne.symm

theorem not_slt_iff_toInt_le : (!a.slt b) = true ↔ b.toInt ≤ a.toInt := by
  rw [Bool.not_eq_true', ← Bool.not_eq_true, BitVec.slt_iff_toInt_lt, Int.not_lt]

theorem not_ult_iff_toNat_le : (!a.ult b) = true ↔ b.toNat ≤ a.toNat := by
  rw [Bool.not_eq_true', ← Bool.not_eq_true, BitVec.ult_iff_lt, BitVec.lt_def, Nat.not_lt]

end

/-- A branch whose condition is P goes to pc + imm where P holds, and to pc + 4 elsewhere. -/
theorem exec_branch {i : Instr} {s : State} {taken : Bool} {w : Nat} {imm : BitVec w} {P : Prop}
    (means : exec i s = s.branch taken (sext imm) 4#64) (decides : taken = true ↔ P) :
    (P → exec i s = .next (s.retireTo (BitVec.ofInt 64 (s.pc.toInt + imm.toInt)))) ∧
    (¬P → exec i s = .next (s.retireTo (BitVec.ofInt 64 (s.pc.toInt + 4)))) := by
  rw [means, ← decides]
  cases taken with
  | true => exact ⟨fun _ => s.branch_taken imm 4#64, fun h => absurd rfl h⟩
  | false => exact ⟨nofun, fun _ => s.branch_not_taken (sext imm) 4#64⟩

/-- Settles O17: the targets are sums of integers, and each branch's Boolean says what the integers say. -/
theorem controlTransfersGoToTheirTargets : Obligations.ControlTransfersGoToTheirTargets := by
  constructor
  · intro s rd rs1 imm j
    constructor
    · rw [← add_sext_eq_ofInt]
      rfl
    · intro sum
      rw [← s.jalrTarget_eq_ofNat rs1 imm]
      rfl
  · intro s rs1 rs2 imm a b goes
    refine ⟨?beq, ?bne, ?blt, ?bge, ?bltu, ?bgeu⟩
    case beq => exact exec_branch rfl (beq_iff_toInt_eq a b)
    case bne => exact exec_branch rfl (bne_iff_toInt_ne a b)
    case blt => exact exec_branch rfl BitVec.slt_iff_toInt_lt
    case bge => exact exec_branch rfl (not_slt_iff_toInt_le a b)
    case bltu => exact exec_branch rfl BitVec.ult_iff_lt
    case bgeu => exact exec_branch rfl (not_ult_iff_toNat_le a b)

end Sys2Proof.Machine
end

section
/-! PROOFS. Loads and stores (spec/42_loadstore.md): each is its one access and then its write, at a sum of integers. -/
namespace Sys2Proof.Machine

/-! ## Addresses and registers (R490, R741) -/

theorem State.effAddrU_eq_ofInt {w : Nat} (s : State) (rs1 : Reg) (uimm : BitVec w) :
    s.effAddrU rs1 uimm = BitVec.ofInt 64 ((s.readX rs1).toInt + uimm.toNat) := by
  rw [State.effAddrU, zext, BitVec.ofInt_add, BitVec.ofInt_toInt, BitVec.ofInt_natCast, BitVec.ofNat_toNat]

theorem fullReg_eq_ofNat : ∀ r : CReg, fullReg r = BitVec.ofNat 5 (8 + r.toNat) := by decide

/-! ## The access gives the answer (R492, R581)

A load or store whose access succeeds retires in the access's state, after its register write; an FP form does so where FS is not
Off. -/

namespace State
variable {s t : State} {ea v pa : Word} {n : Nat}

variable (rd : Reg) (extend : Word → Word) (bits size : Word)

theorem loadX_of_memRead (read : s.memRead ea n = .ok (v, pa) t) :
    s.loadX rd ea n extend size = .next ((t.writeX rd (extend v)).retireTo (s.pc + size)) := by
  rw [loadX, read]
  rfl

theorem fpGuard_loadF_of_memRead (fpOn : s.csr.mstatus.fs ≠ 0#2) (read : s.memRead ea n = .ok (v, pa) t) :
    s.fpGuard bits (s.loadF rd ea n extend size) = .next ((t.writeF rd (extend v)).retireTo (s.pc + size)) := by
  rw [fpGuard_on bits _ fpOn, loadF, read]
  rfl

theorem store_of_memWrite (written : s.memWrite ea n v = .ok () t) :
    s.store ea n v size = .next (t.retireTo (s.pc + size)) := by
  rw [store, written]
  rfl

theorem fpGuard_store_of_memWrite (fpOn : s.csr.mstatus.fs ≠ 0#2) (written : s.memWrite ea n v = .ok () t) :
    s.fpGuard bits (s.store ea n v size) = .next (t.retireTo (s.pc + size)) := by
  rw [fpGuard_on bits _ fpOn, store_of_memWrite size written]

end State

open State

/-- Settles O20: at the model's address, each meaning is its access rule with its width and its extension. -/
theorem loadsAndStoresComplete : Obligations.LoadsAndStoresComplete := by
  refine ⟨⟨?loads, ?shortLoads⟩, ?fpLoads, ?stores, ?shortStores⟩
  case loads =>
    intro s t rd rs1 imm v pa
    simp only [← effAddr_eq_ofInt]
    exact ⟨loadX_of_memRead rd (signLoad 8) _, loadX_of_memRead rd (signLoad 16) _, loadX_of_memRead rd (signLoad 32) _,
      loadX_of_memRead rd id _, loadX_of_memRead rd (zeroLoad 8) _, loadX_of_memRead rd (zeroLoad 16) _,
      loadX_of_memRead rd (zeroLoad 32) _⟩
  case shortLoads =>
    intro s t rd d b w u sw su v pa
    simp only [← effAddrU_eq_ofInt, ← fullReg_eq_ofNat]
    exact ⟨loadX_of_memRead (fullReg d) (signLoad 32) _, loadX_of_memRead (fullReg d) id _,
      loadX_of_memRead rd (signLoad 32) _, loadX_of_memRead rd id _⟩
  case fpLoads =>
    intro s t rd rs1 imm d b u su v pa fpOn
    simp only [← effAddr_eq_ofInt, ← effAddrU_eq_ofInt, ← fullReg_eq_ofNat]
    exact ⟨fpGuard_loadF_of_memRead rd (fun v => boxS (low32 v)) _ _ fpOn, fpGuard_loadF_of_memRead rd id _ _ fpOn,
      fpGuard_loadF_of_memRead (fullReg d) id _ _ fpOn, fpGuard_loadF_of_memRead rd id _ _ fpOn⟩
  case stores =>
    intro s t rs1 rs2 imm
    simp only [← effAddr_eq_ofInt]
    exact ⟨store_of_memWrite _, store_of_memWrite _, store_of_memWrite _, store_of_memWrite _,
      fpGuard_store_of_memWrite _ _, fpGuard_store_of_memWrite _ _⟩
  case shortStores =>
    intro s t rs2 b d w u sw su
    simp only [← effAddrU_eq_ofInt, ← fullReg_eq_ofNat]
    exact ⟨store_of_memWrite _, store_of_memWrite _, store_of_memWrite _, store_of_memWrite _,
      fpGuard_store_of_memWrite _ _, fpGuard_store_of_memWrite _ _⟩

end Sys2Proof.Machine
end

section
/-! PROOFS. Multiply and divide (spec/43_muldiv.md): the integers whose product, quotient and remainder each result is. -/
namespace Sys2Proof.Machine

/-! ## Products (R512)

A product of bit vectors is that of any integers they stand for. -/

/-- The bits from 64 up of an integer are its floor quotient by 2^64. -/
theorem highHalf_ofInt (z : Int) : highHalf (BitVec.ofInt 128 z) = BitVec.ofInt 64 (z / 2 ^ 64) := by
  apply BitVec.eq_of_toNat_eq
  rw [highHalf, BitVec.extractLsb'_toNat, BitVec.toNat_ofInt, BitVec.toNat_ofInt, Nat.shiftRight_eq_div_pow]
  omega

theorem ofInt_toNat {w v : Nat} (a : BitVec w) : BitVec.ofInt v a.toNat = a.setWidth v := by
  rw [BitVec.ofInt_natCast, BitVec.ofNat_toNat]

section
variable {w : Nat} {x y : Int}

theorem mul_eq_ofInt {a b : BitVec w} (ha : BitVec.ofInt w x = a) (hb : BitVec.ofInt w y = b) :
    a * b = BitVec.ofInt w (x * y) := by
  rw [BitVec.ofInt_mul, ha, hb]

theorem highHalf_mul_eq_ofInt {p q : BitVec 128} (hp : BitVec.ofInt 128 x = p) (hq : BitVec.ofInt 128 y = q) :
    highHalf (p * q) = BitVec.ofInt 64 (x * y / 2 ^ 64) := by
  rw [mul_eq_ofInt hp hq, highHalf_ofInt]

end

theorem highHalf_mul_eq_ofNat (a b : Word) :
    highHalf (a.setWidth 128 * b.setWidth 128) = BitVec.ofNat 64 (a.toNat * b.toNat / 2 ^ 64) := by
  rw [highHalf_mul_eq_ofInt (ofInt_toNat a) (ofInt_toNat b), ← BitVec.ofInt_natCast]
  push_cast
  rfl

theorem mul_eq_ofNat {w : Nat} (a b : BitVec w) : a * b = BitVec.ofNat w (a.toNat * b.toNat) := by
  rw [BitVec.ofNat_mul, BitVec.ofNat_toNat, BitVec.ofNat_toNat, BitVec.setWidth_eq, BitVec.setWidth_eq]

theorem wordOp_mul_eq_ofInt (a b : Word) : wordOp (fun a b => a * b) a b =
    BitVec.ofInt 64 (((a.toNat % 2 ^ 32 * (b.toNat % 2 ^ 32) : Nat) : Int).bmod (2 ^ 32)) := by
  rw [wordOp, mul_eq_ofNat, wordResult_ofNat, toNat_low32, toNat_low32]

/-- Settles O15: MUL takes either integer a register stands for, and the high forms the one they extend it to. -/
theorem multiplyResults : Obligations.MultiplyResults := by
  intro s rd rs1 rs2 a b
  have signed (c : Word) : BitVec.ofInt 64 c.toInt = c := BitVec.ofInt_toInt
  have unsigned (c : Word) : BitVec.ofInt 64 c.toNat = c := (ofInt_toNat c).trans (BitVec.setWidth_eq c)
  refine ⟨?mul, ?mulUnsigned, ?mulMixed, ?mulh, ?mulhsu, ?mulhu, ?mulw⟩
  case mul => exact completesX_of_eq rfl (mul_eq_ofInt (signed a) (signed b))
  case mulUnsigned => exact completesX_of_eq rfl (mul_eq_ofNat a b)
  case mulMixed => exact completesX_of_eq rfl (mul_eq_ofInt (signed a) (unsigned b))
  case mulh => exact completesX_of_eq rfl (highHalf_mul_eq_ofInt rfl rfl)
  case mulhsu => exact completesX_of_eq rfl (highHalf_mul_eq_ofInt rfl (ofInt_toNat b))
  case mulhu => exact completesX_of_eq rfl (highHalf_mul_eq_ofNat a b)
  case mulw => exact completesX_of_eq rfl (wordOp_mul_eq_ofInt a b)

/-! ## Quotients and remainders (R510)

At every width: the rows of the table by the integers of the operands, and the law where no special case applies. -/

/-- A remainder toward zero is 0 or has the sign of the dividend. -/
theorem tmod_eq_zero_or_neg_iff (x y : Int) : x.tmod y = 0 ∨ (x.tmod y < 0 ↔ x < 0) := by
  have sign := Int.sign_tmod x y
  split at sign
  · exact .inl (Int.sign_eq_zero_iff_zero.mp sign)
  · exact .inr (by rw [← Int.sign_eq_neg_one_iff_neg, sign, Int.sign_eq_neg_one_iff_neg])

section
variable {w : Nat} (a b : BitVec w)

theorem allOnes_eq_ofInt : BitVec.allOnes w = BitVec.ofInt w (-1) := by
  rw [BitVec.ofInt_neg, ← BitVec.neg_one_eq_allOnes]
  rfl

theorem allOnes_eq_ofNat : BitVec.allOnes w = BitVec.ofNat w (2 ^ w - 1) := BitVec.ofNatLT_eq_ofNat _

theorem eq_zero_iff_toInt : b = 0#w ↔ b.toInt = 0 := by
  rw [← BitVec.toInt_inj, BitVec.toInt_zero]

theorem overflows_iff_toInt (hw : 0 < w) :
    a = BitVec.intMin w ∧ b = BitVec.allOnes w ↔ a.toInt = -2 ^ (w - 1) ∧ b.toInt = -1 := by
  rw [← BitVec.toInt_inj, ← BitVec.toInt_inj, BitVec.toInt_intMin_of_pos hw, BitVec.toInt_allOnes, if_pos hw]

theorem quotS_eq_ite (hw : 0 < w) : quotS a b =
    if b.toInt = 0 then BitVec.ofInt w (-1)
    else if a.toInt = -2 ^ (w - 1) ∧ b.toInt = -1 then BitVec.ofInt w (-2 ^ (w - 1))
    else BitVec.ofInt w (a.toInt.tdiv b.toInt) :=
  if_congr (eq_zero_iff_toInt b) allOnes_eq_ofInt
    (if_congr (overflows_iff_toInt a b hw) BitVec.intMin_eq_neg_two_pow rfl)

theorem remS_eq_ite (hw : 0 < w) : remS a b =
    if b.toInt = 0 then a
    else if a.toInt = -2 ^ (w - 1) ∧ b.toInt = -1 then 0#w
    else BitVec.ofInt w (a.toInt.tmod b.toInt) :=
  if_congr (eq_zero_iff_toInt b) rfl (if_congr (overflows_iff_toInt a b hw) rfl rfl)

theorem quotU_eq_ite : quotU a b =
    if b.toInt = 0 then BitVec.ofNat w (2 ^ w - 1) else BitVec.ofNat w (a.toNat / b.toNat) :=
  if_congr (eq_zero_iff_toInt b) allOnes_eq_ofNat rfl

theorem remU_eq_ite : remU a b = if b.toInt = 0 then a else BitVec.ofNat w (a.toNat % b.toNat) :=
  if_congr (eq_zero_iff_toInt b) rfl rfl

section
variable {a b} (nonzero : b ≠ 0#w) (fits : ¬(a = BitVec.intMin w ∧ b = BitVec.allOnes w))
include nonzero fits

theorem toInt_quotS : (quotS a b).toInt = a.toInt.tdiv b.toInt := by
  rw [quotS, if_neg nonzero, if_neg fits, BitVec.toInt_ofInt, ← BitVec.toInt_sdiv]
  rw [← BitVec.neg_one_eq_allOnes] at fits
  exact BitVec.toInt_sdiv_of_ne_or_ne a b (not_and_or.mp fits)

theorem toInt_remS : (remS a b).toInt = a.toInt.tmod b.toInt := by
  rw [remS, if_neg nonzero, if_neg fits, ← BitVec.toInt_srem, BitVec.ofInt_toInt]

end

/-- The division law a = q·b + r: no special case, and so the quotient and the remainder are those of the integers. -/
theorem quotS_remS_law (hw : 0 < w) (nonzero : b.toInt ≠ 0) (fits : ¬(a.toInt = -2 ^ (w - 1) ∧ b.toInt = -1)) :
    a.toInt = (quotS a b).toInt * b.toInt + (remS a b).toInt ∧ (remS a b).toInt.natAbs < b.toInt.natAbs ∧
    ((remS a b).toInt = 0 ∨ ((remS a b).toInt < 0 ↔ a.toInt < 0)) := by
  have divisor : b ≠ 0#w := mt (eq_zero_iff_toInt b).mp nonzero
  rw [← overflows_iff_toInt a b hw] at fits
  rw [toInt_quotS divisor fits, toInt_remS divisor fits, Int.natAbs_tmod]
  exact ⟨(Int.tdiv_mul_add_tmod ..).symm, Nat.mod_lt _ (Int.natAbs_pos.mpr nonzero), tmod_eq_zero_or_neg_iff ..⟩

end

/-- Settles O16: the rows of the table at both widths, and the law of the signed forms. -/
theorem divideResults : Obligations.DivideResults := by
  constructor
  · intro s rd rs1 rs2 a b x y q r
    have quotient : quotS a b = q := quotS_eq_ite a b (by decide)
    have remainder : remS a b = r := remS_eq_ite a b (by decide)
    refine ⟨?div, ?rem, ?law, ?divu, ?remu⟩
    case div => exact completesX_of_eq rfl quotient
    case rem => exact completesX_of_eq rfl remainder
    case law =>
      rw [← quotient, ← remainder]
      exact quotS_remS_law a b (by decide)
    case divu => exact completesX_of_eq rfl (quotU_eq_ite a b)
    case remu => exact completesX_of_eq rfl (remU_eq_ite a b)
  · intro s rd rs1 rs2 a b x y q r
    have quotient : quotS a b = q := quotS_eq_ite a b (by decide)
    have remainder : remS a b = r := remS_eq_ite a b (by decide)
    refine ⟨?divw, ?remw, ?wordLaw, ?divuw, ?remuw⟩
    case divw => exact completesX_of_eq rfl (congrArg wordResult quotient)
    case remw => exact completesX_of_eq rfl (congrArg wordResult remainder)
    case wordLaw =>
      rw [← quotient, ← remainder]
      exact quotS_remS_law a b (by decide)
    case divuw => exact completesX_of_eq rfl (congrArg wordResult (quotU_eq_ite a b))
    case remuw => exact completesX_of_eq rfl (congrArg wordResult (remU_eq_ite a b))

end Sys2Proof.Machine
end

section
/-! PROOFS. Atomic instructions (spec/44_atomic.md): what LR, SC and the AMOs do where the bus takes their accesses. -/
namespace Sys2Proof.Machine

/-! ## Signed and unsigned minimum and maximum, by the integers (R544 to R547) -/

section
variable {w : Nat} (a b : BitVec w)

theorem minS_eq_ite : minS a b = if a.toInt < b.toInt then a else b := if_congr BitVec.slt_iff_toInt_lt rfl rfl

theorem maxS_eq_ite : maxS a b = if a.toInt < b.toInt then b else a := if_congr BitVec.slt_iff_toInt_lt rfl rfl

theorem minU_eq_ite : minU a b = if a.toNat < b.toNat then a else b := if_congr BitVec.ult_iff_lt rfl rfl

theorem maxU_eq_ite : maxU a b = if a.toNat < b.toNat then b else a := if_congr BitVec.ult_iff_lt rfl rfl

end

namespace State

theorem granule_eq_of_cfg {s t : State} (same : t.cfg = s.cfg) (pa : Word) : t.granule pa = s.granule pa := by
  rw [granule, granule, same]

/-! ## LR (R535) -/

/-- LR reserves the granule of the address its read came from; the read has not changed what a granule is. -/
theorem loadReserved_of_memRead {s t : State} {a v pa : Word} {n : Nat} (rd : Reg) (extend : Word → Word)
    (read : s.memRead a n = .ok (v, pa) t) : s.loadReserved rd a n extend =
      .next (retireTo { t.writeX rd (extend v) with resv := some (s.granule pa) } (s.pc + 4#64)) := by
  rw [← granule_eq_of_cfg (kept_memRead read).same.cfg, loadReserved, read]
  rfl

/-! ## SC and AMOs at an aligned address that is translated as a store (R531, R534, R536) -/

section
variable {s t u w : State} {a pa v code old : Word} {n : Nat}

theorem storeConditional_of_scAccess (rd : Reg) (access : s.scAccess a n v = .ok code u) :
    s.storeConditional rd a n v = .next (retireTo { u.writeX rd code with resv := none } (s.pc + 4#64)) := by
  rw [storeConditional, access]
  rfl

variable (aligned : a.toNat % n = 0) (translated : s.translate .store a = .ok pa t)
include aligned translated

theorem scAccess_of_reserved (reserved : t.resv = some (t.granule pa)) (written : t.busWrite pa n v = some u) :
    s.scAccess a n v = .ok 0#64 u := by
  simp [scAccess, isAligned, aligned, translated, Res.bind, reserved, written]

theorem scAccess_of_not_reserved (other : t.resv ≠ some (t.granule pa)) : s.scAccess a n v = .ok 1#64 t := by
  simp [scAccess, isAligned, aligned, translated, Res.bind, other]

theorem memAmo_of_bus {f : Word → Word} (read : t.busRead pa n = some (old, u))
    (written : u.busWrite pa n (f old) = some w) : s.memAmo a n f = .ok old w := by
  simp [memAmo, isAligned, aligned, translated, Res.bind, read, written]

end

section
variable {s w : State} {a old : Word} (rd : Reg) (src : Word)

theorem amoW_of_memAmo (f : BitVec 32 → BitVec 32 → BitVec 32)
    (access : s.memAmo a 4 (fun old => zext (f (low32 old) (low32 src))) = .ok old w) :
    s.amoW rd a src f = .next ((w.writeX rd (wordResult (low32 old))).retireTo (s.pc + 4#64)) := by
  rw [amoW, access]
  rfl

theorem amoD_of_memAmo (f : Word → Word → Word) (access : s.memAmo a 8 (fun old => f old src) = .ok old w) :
    s.amoD rd a src f = .next ((w.writeX rd old).retireTo (s.pc + 4#64)) := by
  rw [amoD, access]
  rfl

end

end State

open State

/-! ## The obligations -/

/-- Settles O27: LR by its read; SC by whether the reservation is on the granule of its address. -/
theorem loadReservedAndStoreConditional : Obligations.LoadReservedAndStoreConditional := by
  constructor
  · intro s t aq rl rd rs1 v pa G done
    exact ⟨loadReserved_of_memRead rd fun v => wordResult (low32 v), loadReserved_of_memRead rd id⟩
  · intro s t aq rl rd rs1 rs2 pa a G granule done translated
    have succeeds {n : Nat} {u : State} (aligned : a.toNat % n = 0) (reserved : t.resv = some granule)
        (written : t.busWrite pa n (s.readX rs2) = some u) : s.storeConditional rd a n (s.readX rs2) = done u 0#64 :=
      storeConditional_of_scAccess rd (scAccess_of_reserved aligned translated reserved written)
    have fails {n : Nat} (aligned : a.toNat % n = 0) (other : t.resv ≠ some granule) :
        s.storeConditional rd a n (s.readX rs2) = done t 1#64 :=
      storeConditional_of_scAccess rd (scAccess_of_not_reserved aligned translated other)
    exact ⟨fun _ => succeeds, fails, fun _ => succeeds, fails⟩

/-- Settles O28: each AMO's function is the one named, the sums and the orders by the integers. -/
theorem amoResults : Obligations.AmoResults := by
  constructor
  · intro s t u w aq rl rd rs1 rs2 pa old aligned translated read x y does
    have does_of {i : Instr} (f : BitVec 32 → BitVec 32 → BitVec 32) {new : BitVec 32}
        (means : exec i s = s.amoW rd (s.readX rs1) (s.readX rs2) f) (value : f x y = new) : does i new := by
      subst value
      exact fun written => means.trans (amoW_of_memAmo rd _ f (memAmo_of_bus aligned translated read written))
    refine ⟨?swap, ?add, ?xor, ?and, ?or, ?min, ?max, ?minu, ?maxu⟩
    case swap => exact does_of (fun _ b => b) rfl rfl
    case add => exact does_of (fun a b => a + b) rfl (BitVec.add_def x y)
    case xor => exact does_of (fun a b => a ^^^ b) rfl rfl
    case and => exact does_of (fun a b => a &&& b) rfl rfl
    case or => exact does_of (fun a b => a ||| b) rfl rfl
    case min => exact does_of minS rfl (minS_eq_ite x y)
    case max => exact does_of maxS rfl (maxS_eq_ite x y)
    case minu => exact does_of minU rfl (minU_eq_ite x y)
    case maxu => exact does_of maxU rfl (maxU_eq_ite x y)
  · intro s t u w aq rl rd rs1 rs2 pa x aligned translated read y does
    have does_of {i : Instr} (f : Word → Word → Word) {new : Word}
        (means : exec i s = s.amoD rd (s.readX rs1) y f) (value : f x y = new) : does i new := by
      subst value
      exact fun written => means.trans (amoD_of_memAmo rd _ f (memAmo_of_bus aligned translated read written))
    refine ⟨?swap, ?add, ?xor, ?and, ?or, ?min, ?max, ?minu, ?maxu⟩
    case swap => exact does_of (fun _ b => b) rfl rfl
    case add => exact does_of (fun a b => a + b) rfl (BitVec.add_def x y)
    case xor => exact does_of (fun a b => a ^^^ b) rfl rfl
    case and => exact does_of (fun a b => a &&& b) rfl rfl
    case or => exact does_of (fun a b => a ||| b) rfl rfl
    case min => exact does_of minS rfl (minS_eq_ite x y)
    case max => exact does_of maxS rfl (maxS_eq_ite x y)
    case minu => exact does_of minU rfl (minU_eq_ite x y)
    case maxu => exact does_of maxU rfl (maxU_eq_ite x y)

end Sys2Proof.Machine
end

section
/-! PROOFS. FP instructions: illegal while FS is Off or with a rounding mode that is none, and otherwise complete with the result
and the flags of their operation (spec/45_fp_single.md R563, R566; spec/47_system.md R712). -/
namespace Sys2Proof.Machine

namespace State
variable {s : State}

/-! ## The two guards -/

theorem fpGuard_off (bits : Word) (k : Result) (off : s.csr.mstatus.fs = 0#2) : s.fpGuard bits k = s.illegal bits := by
  simp [fpGuard, fpEnabled, off]

theorem fpRounded_of_mode {rm : BitVec 3} {m : RoundingMode} (bits : Word) (k : RoundingMode → Result)
    (on : s.csr.mstatus.fs ≠ 0#2) (mode : s.roundingMode rm = some m) : s.fpRounded bits rm k = k m := by
  rw [fpRounded, fpGuard_on bits _ on, mode]

theorem fpRounded_of_no_mode {rm : BitVec 3} (bits : Word) (k : RoundingMode → Result)
    (on : s.csr.mstatus.fs ≠ 0#2) (mode : s.roundingMode rm = none) : s.fpRounded bits rm k = s.illegal bits := by
  rw [fpRounded, fpGuard_on bits _ on, mode]

theorem csrAccess_of_own_check_failed {a : BitVec 12} {c : CsrName} (writes : Bool) (at_a : csrOf a = some c)
    (failed : s.csrOwnCheck c = false) : s.csrAccess a writes = none := by
  simp [csrAccess, at_a, failed]

/-- The CSRs 1, 2 and 3 are those of the FP state, so none of them may be accessed. -/
theorem csrAccess_fp_off {a : BitVec 12} (writes : Bool) (off : s.csr.mstatus.fs = 0#2) (ha : a.toNat ∈ [1, 2, 3]) :
    s.csrAccess a writes = none := by
  have check : (s.csr.mstatus.fs != 0#2) = false := bne_eq_false_iff_eq.mpr off
  have number : a = 1#12 ∨ a = 2#12 ∨ a = 3#12 := by
    simpa [← BitVec.toNat_inj] using ha
  obtain rfl | rfl | rfl := number
  · exact csrAccess_of_own_check_failed (c := .fflags) writes rfl check
  · exact csrAccess_of_own_check_failed (c := .frm) writes rfl check
  · exact csrAccess_of_own_check_failed (c := .fcsr) writes rfl check

theorem csrOp_of_no_access {csr : BitVec 12} {writes : Bool} {bits : Word} {rd : Reg} {new : Word → Word}
    (h : s.csrAccess csr writes = none) : s.csrOp bits rd csr writes new = s.illegal bits := by
  rw [csrOp, h]

end State

open State

/-- Every FP instruction is behind the check of FS, with its own bits as trap value. -/
theorem exec_eq_fpGuard {i : Instr} (hi : isFp i = true) (s : State) : ∃ k, exec i s = s.fpGuard (rawBits i) k := by
  unfold exec
  cases i with
  | flw | fsw | fmaddS | fmsubS | fnmsubS | fnmaddS | faddS | fsubS | fmulS | fdivS | fsqrtS | fsgnjS | fsgnjnS | fsgnjxS
  | fminS | fmaxS | fcvtWS | fcvtWuS | fmvXW | feqS | fltS | fleS | fclassS | fcvtSW | fcvtSWu | fmvWX | fcvtLS | fcvtLuS
  | fcvtSL | fcvtSLu | fld | fsd | fmaddD | fmsubD | fnmsubD | fnmaddD | faddD | fsubD | fmulD | fdivD | fsqrtD | fsgnjD
  | fsgnjnD | fsgnjxD | fminD | fmaxD | fcvtSD | fcvtDS | feqD | fltD | fleD | fclassD | fcvtWD | fcvtWuD | fcvtDW | fcvtDWu
  | fcvtLD | fcvtLuD | fmvXD | fcvtDL | fcvtDLu | fmvDX | cFld | cFsd | cFldsp | cFsdsp =>
    exact ⟨_, rfl⟩
  | _ => cases hi

/-- Every instruction with a rounding-mode field is also behind the check of its mode. -/
theorem exec_eq_fpRounded {i : Instr} {rm : BitVec 3} (hi : rmOf i = some rm) (s : State) :
    ∃ k, exec i s = s.fpRounded (rawBits i) rm k := by
  unfold exec
  cases i with
  | fmaddS | fmsubS | fnmsubS | fnmaddS | faddS | fsubS | fmulS | fdivS | fsqrtS | fcvtWS | fcvtWuS | fcvtSW | fcvtSWu
  | fcvtLS | fcvtLuS | fcvtSL | fcvtSLu | fmaddD | fmsubD | fnmsubD | fnmaddD | faddD | fsubD | fmulD | fdivD | fsqrtD
  | fcvtSD | fcvtDS | fcvtWD | fcvtWuD | fcvtDW | fcvtDWu | fcvtLD | fcvtLuD | fcvtDL | fcvtDLu =>
    cases hi
    exact ⟨_, rfl⟩
  | _ => cases hi

theorem RoundingMode.ofCode?_eq_ite : ∀ code : BitVec 3, RoundingMode.ofCode? code =
    if code = 0#3 then some .rne else if code = 1#3 then some .rtz else if code = 2#3 then some .rdn
    else if code = 3#3 then some .rup else if code = 4#3 then some .rmm else none := by decide

theorem RoundingMode.ofCode?_eq_none : ∀ code : BitVec 3, 5 ≤ code.toNat → RoundingMode.ofCode? code = none := by decide

/-! ## The obligations -/

/-- Settles O37: the guards answer, whatever is behind them. -/
theorem fpLegality : Obligations.FpLegality := by
  constructor
  · intro s off
    constructor
    · intro i hi
      obtain ⟨k, hk⟩ := exec_eq_fpGuard hi s
      exact hk.trans (fpGuard_off _ k off)
    · intro rd rs1 u csr hcsr
      have traps (writes : Bool) (bits : Word) (new : Word → Word) : s.csrOp bits rd csr writes new = s.illegal bits :=
        csrOp_of_no_access (csrAccess_fp_off writes off hcsr)
      simp only [List.forall_mem_cons]
      dsimp only [exec, execCsrrw, execCsrrs, execCsrrc, execCsrrwi, execCsrrsi, execCsrrci]
      exact ⟨traps .., traps .., traps .., traps .., traps .., traps .., nofun⟩
  · intro s rm code
    refine ⟨RoundingMode.ofCode?_eq_ite code, fun i hi on bad => ?_⟩
    obtain ⟨k, hk⟩ := exec_eq_fpRounded hi s
    exact hk.trans (fpRounded_of_no_mode _ k on (RoundingMode.ofCode?_eq_none code bad))

/-- Settles O29: with FS on and a mode, each instruction is its result. -/
theorem fpArithmeticCompletes : Obligations.FpArithmeticCompletes := by
  constructor
  · intro s rm m rd rs1 rs2 rs3 on mode a b c x gives
    and_intros <;> exact fpRounded_of_mode _ _ on mode
  · intro s rm m rd rs1 rs2 rs3 on mode a b c x gives
    and_intros <;> exact fpRounded_of_mode _ _ on mode

end Sys2Proof.Machine
end

section
/-! PROOFS. The values of floating-point patterns (spec/45_fp_single.md R560): the patterns of one sign in order, as multiples of
the weight of the last subnormal bit, and what each pattern stands for. -/
namespace Sys2Proof.Machine

theorem finValue_false (m : Nat) (e : Int) : finValue false m e = m * 2 ^ e := by simp [finValue]

theorem finValue_eq_ite (t : Bool) (m : Nat) (e : Int) :
    finValue t m e = if t then -finValue false m e else finValue false m e := by
  cases t <;> simp [finValue]

theorem finValue_false_nonneg (m : Nat) (e : Int) : 0 ≤ finValue false m e := by
  rw [finValue_false]
  positivity

namespace FpFmt
variable (F : FpFmt)

/-! ## Magnitudes in units of 2^minExp -/

/-- The value of the magnitude n as a multiple of 2^minExp, with no bound on the exponent field. -/
def units (n : Nat) : Nat :=
  if n / 2 ^ F.fbits = 0 then n else (2 ^ F.fbits + n % 2 ^ F.fbits) * 2 ^ (n / 2 ^ F.fbits - 1)

/-- All of a pattern but its sign. -/
def magOf (p : Nat) : Nat := p % F.signWeight

theorem units_subnormal {n : Nat} (h : n < 2 ^ F.fbits) : F.units n = n := if_pos (Nat.div_eq_of_lt h)

theorem units_normal (k : Nat) {i : Nat} (h : i < 2 ^ F.fbits) :
    F.units ((k + 1) * 2 ^ F.fbits + i) = (2 ^ F.fbits + i) * 2 ^ k := by
  have quotient : ((k + 1) * 2 ^ F.fbits + i) / 2 ^ F.fbits = k + 1 := by
    rw [Nat.mul_comm, Nat.mul_add_div (Nat.two_pow_pos _), Nat.div_eq_of_lt h, Nat.add_zero]
  have remainder : ((k + 1) * 2 ^ F.fbits + i) % 2 ^ F.fbits = i := by
    rw [Nat.mul_add_mod_self_right, Nat.mod_eq_of_lt h]
  rw [units, quotient, remainder, if_neg (Nat.succ_ne_zero k), Nat.add_sub_cancel]

/-- A mantissa j at the exponent k: subnormal, normal, or the power of two that the mantissas below it round up to. -/
theorem units_mantissa {k j : Nat} (normal : k = 0 ∨ 2 ^ F.fbits ≤ j) (bounded : j ≤ 2 ^ (F.fbits + 1)) :
    F.units (k * 2 ^ F.fbits + j) = j * 2 ^ k := by
  rw [Nat.pow_succ] at bounded
  rcases lt_or_ge j (2 ^ F.fbits) with sub | h
  · obtain rfl : k = 0 := normal.resolve_right (by omega)
    rw [Nat.zero_mul, Nat.zero_add, F.units_subnormal sub, Nat.pow_zero, Nat.mul_one]
  obtain ⟨i, rfl⟩ := Nat.exists_eq_add_of_le h
  rcases Nat.lt_or_ge i (2 ^ F.fbits) with hi | hi
  · rw [← F.units_normal k hi]
    congr 1
    ring
  · obtain rfl : i = 2 ^ F.fbits := by omega
    calc F.units (k * 2 ^ F.fbits + (2 ^ F.fbits + 2 ^ F.fbits))
        = F.units ((k + 1 + 1) * 2 ^ F.fbits + 0) := by congr 1; ring
      _ = (2 ^ F.fbits + 2 ^ F.fbits) * 2 ^ k := by rw [F.units_normal (k + 1) (Nat.two_pow_pos _)]; ring

theorem exists_mantissa (n : Nat) :
    ∃ k j, n = k * 2 ^ F.fbits + j ∧ (k = 0 ∨ 2 ^ F.fbits ≤ j) ∧ j < 2 ^ (F.fbits + 1) := by
  rcases Nat.lt_or_ge n (2 ^ F.fbits) with h | h
  · exact ⟨0, n, by simp, .inl rfl, h.trans (Nat.pow_lt_pow_right (by decide) (Nat.lt_succ_self _))⟩
  · have hk : 1 ≤ n / 2 ^ F.fbits := (Nat.one_le_div_iff (Nat.two_pow_pos _)).mpr h
    refine ⟨n / 2 ^ F.fbits - 1, 2 ^ F.fbits + n % 2 ^ F.fbits, ?_, .inr (Nat.le_add_right _ _), ?_⟩
    · rw [← Nat.add_assoc, ← Nat.succ_mul, Nat.succ_eq_add_one, Nat.sub_add_cancel hk, Nat.div_add_mod']
    · have := Nat.mod_lt n (Nat.two_pow_pos F.fbits)
      rw [Nat.pow_succ]
      omega

/-- Patterns of one sign are ordered as their values. -/
theorem units_strictMono : StrictMono F.units := by
  refine strictMono_nat_of_lt_succ fun n => ?_
  obtain ⟨k, j, rfl, normal, bounded⟩ := F.exists_mantissa n
  rw [F.units_mantissa normal bounded.le, Nat.add_assoc, F.units_mantissa (normal.imp_right (by omega)) bounded]
  exact Nat.mul_lt_mul_of_pos_right (Nat.lt_succ_self j) (Nat.two_pow_pos k)

@[simp] theorem units_zero : F.units 0 = 0 := F.units_subnormal (Nat.two_pow_pos _)

/-! ## Signs and magnitudes -/

theorem signWeight_pos : 0 < F.signWeight := Nat.two_pow_pos _

theorem infPattern_lt_signWeight : F.infPattern < F.signWeight := by
  rw [infPattern, signWeight, Nat.pow_add]
  exact Nat.mul_lt_mul_of_pos_right (Nat.sub_lt (Nat.two_pow_pos _) Nat.one_pos) (Nat.two_pow_pos _)

theorem withSign_lt {n : Nat} (s : Bool) (h : n < F.signWeight) : F.withSign s n < 2 * F.signWeight := by
  cases s <;> simp only [withSign] <;> grind

theorem magOf_withSign {n : Nat} (s : Bool) (h : n < F.signWeight) : F.magOf (F.withSign s n) = n := by
  cases s <;> simp [withSign, magOf, Nat.mod_eq_of_lt h]

theorem signOf_withSign {n : Nat} (s : Bool) (h : n < F.signWeight) : F.signOf (F.withSign s n) = s := by
  cases s <;> simp [withSign, signOf, Nat.add_div_left, Nat.div_eq_of_lt h, F.signWeight_pos]

/-- A pattern is its sign and its magnitude. -/
theorem withSign_signOf_magOf {p : Nat} (h : p < 2 * F.signWeight) : F.withSign (F.signOf p) (F.magOf p) = p := by
  have quotient : p / F.signWeight < 2 := (Nat.div_lt_iff_lt_mul F.signWeight_pos).mpr h
  have division := Nat.div_add_mod p F.signWeight
  rw [withSign, signOf, magOf]
  interval_cases p / F.signWeight <;> simp_all

theorem orderKey_eq (p : Nat) : F.orderKey p = if F.signOf p then -(F.magOf p : Int) else F.magOf p := rfl

/-! ## What a pattern stands for -/

/-- A pattern's value, read off its sign and its magnitude. -/
theorem unpack_eq (p : Nat) : F.unpack p =
    if F.magOf p / 2 ^ F.fbits = 2 ^ F.ebits - 1 then
      if F.magOf p % 2 ^ F.fbits = 0 then .inf (F.signOf p) else .nan (F.magOf p % 2 ^ F.fbits < 2 ^ (F.fbits - 1))
    else if F.magOf p / 2 ^ F.fbits = 0 then .fin (F.signOf p) (F.magOf p % 2 ^ F.fbits) F.minExp
    else .fin (F.signOf p) (2 ^ F.fbits + F.magOf p % 2 ^ F.fbits) (F.minExp + (F.magOf p / 2 ^ F.fbits : Nat) - 1) := by
  have weight : F.signWeight = 2 ^ F.fbits * 2 ^ F.ebits := by rw [signWeight, Nat.add_comm, Nat.pow_add]
  rw [magOf, weight, Nat.mod_mul_right_div_self, Nat.mod_mul_right_mod]
  rfl

/-- The three kinds of patterns, by their magnitudes. -/
theorem unpack_cases (p : Nat) :
    (F.infPattern < F.magOf p ∧ ∃ b, F.unpack p = .nan b) ∨
    (F.magOf p = F.infPattern ∧ F.unpack p = .inf (F.signOf p)) ∨
    (F.magOf p < F.infPattern ∧ ∃ m k : Nat, F.unpack p = .fin (F.signOf p) m (F.minExp + k) ∧
      m < 2 ^ (F.fbits + 1) ∧ F.units (F.magOf p) = m * 2 ^ k) := by
  have division := Nat.div_add_mod' (F.magOf p) (2 ^ F.fbits)
  have frac := Nat.mod_lt (F.magOf p) (Nat.two_pow_pos F.fbits)
  have exponent : F.magOf p / 2 ^ F.fbits < 2 ^ F.ebits := by
    rw [Nat.div_lt_iff_lt_mul (Nat.two_pow_pos _), ← Nat.pow_add]
    exact Nat.mod_lt _ F.signWeight_pos
  rw [unpack_eq]
  by_cases top : F.magOf p / 2 ^ F.fbits = 2 ^ F.ebits - 1
  · rw [top, ← infPattern] at division
    by_cases zero : F.magOf p % 2 ^ F.fbits = 0
    · exact .inr (.inl ⟨by omega, by rw [if_pos top, if_pos zero]⟩)
    · exact .inl ⟨by omega, _, by rw [if_pos top, if_neg zero]⟩
  · have finite : F.magOf p < F.infPattern := (Nat.div_lt_iff_lt_mul (Nat.two_pow_pos _)).mp (by omega)
    have double : 2 ^ (F.fbits + 1) = 2 * 2 ^ F.fbits := Nat.pow_succ'
    refine .inr (.inr ⟨finite, ?_⟩)
    rw [if_neg top]
    by_cases sub : F.magOf p / 2 ^ F.fbits = 0
    · rw [sub, Nat.zero_mul, Nat.zero_add] at division
      refine ⟨F.magOf p, 0, by rw [if_pos sub, division]; simp, by omega, ?_⟩
      rw [F.units_subnormal (by omega), Nat.pow_zero, Nat.mul_one]
    · obtain ⟨k, hk⟩ := Nat.exists_eq_add_one_of_ne_zero sub
      refine ⟨_, k, by rw [if_neg sub, hk, Nat.cast_succ, ← add_assoc, add_sub_cancel_right], by omega, ?_⟩
      rw [units, if_neg sub, hk, Nat.add_sub_cancel]

variable {F} {p : Nat}

theorem magOf_of_unpack_inf {s : Bool} (h : F.unpack p = .inf s) : F.magOf p = F.infPattern ∧ F.signOf p = s := by
  obtain ⟨-, b, hb⟩ | ⟨mag, hs⟩ | ⟨-, m, k, hm, -⟩ := F.unpack_cases p <;> simp_all

theorem magOf_of_unpack_fin {s : Bool} {m : Nat} {e : Int} (h : F.unpack p = .fin s m e) :
    F.magOf p < F.infPattern ∧ F.signOf p = s ∧ m < 2 ^ (F.fbits + 1) ∧
      ∃ k : Nat, e = F.minExp + k ∧ F.units (F.magOf p) = m * 2 ^ k := by
  obtain ⟨-, b, hb⟩ | ⟨-, hs⟩ | ⟨mag, m, k, hm, bound, units⟩ := F.unpack_cases p
  · cases h.symm.trans hb
  · cases h.symm.trans hs
  · cases h.symm.trans hm
    exact ⟨mag, rfl, bound, k, rfl, units⟩

theorem unpack_of_finite (h : F.magOf p < F.infPattern) : ∃ m e, F.unpack p = .fin (F.signOf p) m e := by
  obtain ⟨mag, -⟩ | ⟨mag, -⟩ | ⟨-, m, k, hm, -⟩ := F.unpack_cases p
  · omega
  · omega
  · exact ⟨m, _, hm⟩

/-- The value of a finite pattern in units of 2^minExp. -/
theorem finValue_of_unpack {s : Bool} {m : Nat} {e : Int} (h : F.unpack p = .fin s m e) :
    finValue false m e = F.units (F.magOf p) * (2 : ℚ) ^ F.minExp := by
  obtain ⟨-, -, -, k, rfl, units⟩ := magOf_of_unpack_fin h
  rw [units, finValue_false, zpow_add₀ two_ne_zero, zpow_natCast]
  push_cast
  ring

/-- A pattern is that of a zero exactly when its magnitude is 0. -/
theorem magOf_eq_zero_of_unpack {s : Bool} {m : Nat} {e : Int} (h : F.unpack p = .fin s m e) :
    F.magOf p = 0 ↔ m = 0 := by
  obtain ⟨-, -, -, k, -, units⟩ := magOf_of_unpack_fin h
  rw [← F.units_strictMono.injective.eq_iff, units_zero, units]
  simp

end FpFmt

end Sys2Proof.Machine
end

section
/-! PROOFS. Sign injection, moves, FCLASS, comparisons, FMIN and FMAX (spec/45_fp_single.md R570, R571, R574, R592 to R604;
spec/46_fp_double.md R662 to R682). -/
namespace Sys2Proof.Machine

/-! ## FP instructions without a rounding mode -/

section
variable {i : Instr} {s : State} {rd : Reg} {v v' : Word} {fl fl' : FFlags} {bits : Word} (on : s.csr.mstatus.fs ≠ 0#2)
include on

theorem completesF_of_guard (means : exec i s = s.fpGuard bits (s.resultD rd v fl)) (value : v = v') (flags : fl = fl') :
    CompletesF i s rd v' fl' := by
  subst value flags
  exact means.trans (State.fpGuard_on bits _ on)

theorem completesXF_of_guard (means : exec i s = s.fpGuard bits (s.resultX rd v fl)) (value : v = v') (flags : fl = fl') :
    CompletesXF i s rd v' fl' := by
  subst value flags
  exact means.trans (State.fpGuard_on bits _ on)

/-- With no flag raised, FS stays as it was. -/
theorem completesX_of_guard (means : exec i s = s.fpGuard bits (s.resultX rd v FFlags.none)) (value : v = v') :
    CompletesX i s rd v' 4#64 :=
  completesXF_of_guard on means value rfl

end

/-! ## Sign injection (R592 to R594) -/

theorem extractLsb'_not {w start len : Nat} (x : BitVec w) (h : start + len ≤ w) :
    (~~~x).extractLsb' start len = ~~~x.extractLsb' start len := by
  refine BitVec.eq_of_getLsbD_eq fun i hi => ?_
  have inside : start + i < w := by omega
  simp [hi, inside]

/-- A sign in front of a magnitude, as the masks of the rule pick them. -/
theorem sign_append_magnitude {w : Nat} {mag sign : BitVec (1 + w)} (hsign : sign = BitVec.intMin (1 + w)) (hmag : mag = ~~~sign)
    (a b : BitVec (1 + w)) : b.extractLsb' w 1 ++ a.extractLsb' 0 w = (a &&& mag) ||| (b &&& sign) := by
  subst hmag hsign
  refine BitVec.eq_of_getLsbD_eq fun i hi => ?_
  simp only [BitVec.getLsbD_append, BitVec.getLsbD_extractLsb', BitVec.getLsbD_or, BitVec.getLsbD_and, BitVec.getLsbD_not,
    BitVec.getLsbD_intMin]
  by_cases low : i < w
  · have : ¬ i + 1 = 1 + w := by omega
    simp [low, hi, this]
  · obtain rfl : i = w := by omega
    simp [Nat.add_comm]

/-! ## FCLASS (R574) -/

/-- The class is decided by the fields of the pattern. -/
theorem fpClass_eq_two_pow (F : FpFmt) (p : Nat) : fpClass F p = 2 ^
    (if p / 2 ^ F.fbits % 2 ^ F.ebits = 2 ^ F.ebits - 1 then
      if p % 2 ^ F.fbits = 0 then (if F.signOf p then 0 else 7) else if p % 2 ^ F.fbits < 2 ^ (F.fbits - 1) then 8 else 9
    else if p / 2 ^ F.fbits % 2 ^ F.ebits = 0 then
      if p % 2 ^ F.fbits = 0 then (if F.signOf p then 3 else 4) else (if F.signOf p then 2 else 5)
    else (if F.signOf p then 1 else 6)) := by
  have frac := Nat.mod_lt p (Nat.two_pow_pos F.fbits)
  unfold fpClass FpFmt.unpack
  rw [← FpFmt.signOf]
  rcases Nat.lt_or_ge (p % 2 ^ F.fbits) (2 ^ (F.fbits - 1)) with h | h
  · simp only [h, decide_true]
    cases F.signOf p <;> split_ifs <;> simp_all
  · simp only [Nat.not_lt.mpr h, decide_false]
    cases F.signOf p <;> split_ifs <;> simp_all

theorem fpClass_toNat (F : FpFmt) {w : Nat} (a : BitVec w) :
    let sign := a.extractLsb' (F.ebits + F.fbits) 1; let ex := a.extractLsb' F.fbits F.ebits
    let frac := a.extractLsb' 0 F.fbits
    fpClass F a.toNat = 2 ^ (if ex = BitVec.allOnes F.ebits then
        if frac = 0#_ then (if sign = 1#1 then 0 else 7) else if frac.getLsbD (F.fbits - 1) then 9 else 8
      else if ex = 0#_ then
        if frac = 0#_ then (if sign = 1#1 then 3 else 4) else (if sign = 1#1 then 2 else 5)
      else (if sign = 1#1 then 1 else 6)) := by
  intro sign ex frac
  have negative : (sign = 1#1) = (F.signOf a.toNat = true) := by
    simp [sign, FpFmt.signOf, FpFmt.signWeight, ← BitVec.toNat_inj, Nat.shiftRight_eq_div_pow]
  have quiet : (frac.getLsbD (F.fbits - 1) = true) = ¬(a.toNat % 2 ^ F.fbits < 2 ^ (F.fbits - 1)) := by
    rw [← BitVec.msb_eq_getLsbD_last, BitVec.msb_eq_decide]
    simp [frac]
  have top : (ex = BitVec.allOnes _) = (a.toNat / 2 ^ F.fbits % 2 ^ F.ebits = 2 ^ F.ebits - 1) := by
    simp [ex, ← BitVec.toNat_inj, Nat.shiftRight_eq_div_pow]
  have sub : (ex = 0#_) = (a.toNat / 2 ^ F.fbits % 2 ^ F.ebits = 0) := by
    simp [ex, ← BitVec.toNat_inj, Nat.shiftRight_eq_div_pow]
  have zero : (frac = 0#_) = (a.toNat % 2 ^ F.fbits = 0) := by
    simp [frac, ← BitVec.toNat_inj]
  simp only [negative, quiet, top, sub, zero, fpClass_eq_two_pow, ite_not]

/-! ## The order of the values (R570, R571) -/

theorem signedMantissa_mul_two_pow (s : Bool) (m j k : Nat) :
    signedMantissa s m j * 2 ^ k = signedMantissa s m (j + k) := by
  cases s <;> simp [signedMantissa, pow_add, mul_assoc]

/-- Two values compare as their mantissas do at any common exponent below theirs. -/
theorem signedMantissa_lt_iff (s t : Bool) (m n j k : Nat) (e : Int) :
    signedMantissa s m (e + j - min (e + j) (e + k)).toNat < signedMantissa t n (e + k - min (e + j) (e + k)).toNat ↔
      signedMantissa s m j < signedMantissa t n k := by
  rw [← mul_lt_mul_iff_of_pos_right (a := (2 : Int) ^ min j k) (by positivity), signedMantissa_mul_two_pow,
    signedMantissa_mul_two_pow]
  congr! 2 <;> omega

theorem fpLess_of_nan {x y : FpVal} (nan : (x.isNaN || y.isNaN) = true) : fpLess x y = false := by
  cases x with
  | nan => rfl
  | inf | fin =>
    cases y with
    | nan => rfl
    | inf | fin => cases nan

theorem fpMinMax_fst (F : FpFmt) (max : Bool) (p q : Nat) : let x := F.unpack p; let y := F.unpack q
    (fpMinMax F max p q).1 =
      if x.isNaN && y.isNaN then F.canonicalNaN else if x.isNaN then q else if y.isNaN then p
      else if (fpLess x y || fpEqual x y && F.signOf p) != max then p else q := by
  simp only [fpMinMax, apply_ite Prod.fst]

theorem fpMinMax_flags (F : FpFmt) (max : Bool) (p q : Nat) : (fpMinMax F max p q).2 =
    FFlags.when FFlags.nv ((F.unpack p).isSignaling || (F.unpack q).isSignaling) := by
  simp only [fpMinMax, apply_ite Prod.snd, ite_self]

namespace FpFmt
variable {F : FpFmt} {p q : Nat}

theorem signedMantissa_lt_iff_orderKey {m n j k : Nat} (hp : F.units (F.magOf p) = m * 2 ^ j)
    (hq : F.units (F.magOf q) = n * 2 ^ k) :
    signedMantissa (F.signOf p) m j < signedMantissa (F.signOf q) n k ↔ F.orderKey p < F.orderKey q := by
  have mono := F.units_strictMono.lt_iff_lt (a := F.magOf p) (b := F.magOf q)
  have mono' := F.units_strictMono.lt_iff_lt (a := F.magOf q) (b := F.magOf p)
  have zero := F.units_strictMono.le_iff_le (a := F.magOf p) (b := 0)
  have zero' := F.units_strictMono.le_iff_le (a := F.magOf q) (b := 0)
  rw [units_zero] at zero zero'
  rw [signedMantissa, signedMantissa, ← hp, ← hq, orderKey_eq, orderKey_eq]
  cases F.signOf p <;> cases F.signOf q <;> simp only [if_true, if_false, Bool.false_eq_true] <;> omega

variable (pos : 0 < F.infPattern)
include pos

/-- On operands that are no NaN, the comparison is that of the keys. -/
theorem fpLess_unpack (hp : (F.unpack p).isNaN = false) (hq : (F.unpack q).isNaN = false) :
    fpLess (F.unpack p) (F.unpack q) = decide (F.orderKey p < F.orderKey q) := by
  rw [Bool.eq_iff_iff, decide_eq_true_iff]
  obtain ⟨-, _, h⟩ | ⟨magp, valp⟩ | ⟨magp, m, j, valp, -, unitsp⟩ := F.unpack_cases p
  · rw [h] at hp
    cases hp
  all_goals
    obtain ⟨-, _, h⟩ | ⟨magq, valq⟩ | ⟨magq, n, k, valq, -, unitsq⟩ := F.unpack_cases q
    · rw [h] at hq
      cases hq
  case inr.inr.inr.inr =>
    rw [valp, valq, ← signedMantissa_lt_iff_orderKey unitsp unitsq, ← signedMantissa_lt_iff _ _ _ _ _ _ F.minExp]
    exact decide_eq_true_iff
  all_goals
    rw [valp, valq, orderKey_eq, orderKey_eq]
    cases F.signOf p <;> cases F.signOf q <;> simp [fpLess] <;> omega

theorem fpEqual_unpack (hp : (F.unpack p).isNaN = false) (hq : (F.unpack q).isNaN = false) :
    fpEqual (F.unpack p) (F.unpack q) = decide (F.orderKey p = F.orderKey q) := by
  rw [fpEqual, hp, hq, fpLess_unpack pos hp hq, fpLess_unpack pos hq hp, Bool.eq_iff_iff]
  simp only [Bool.and_eq_true, Bool.not_eq_true', decide_eq_false_iff_not, decide_eq_true_iff, Bool.not_false, and_self,
    true_and, not_lt]
  exact and_comm.trans le_antisymm_iff.symm

theorem fpLess_eq : fpLess (F.unpack p) (F.unpack q) =
    (!((F.unpack p).isNaN || (F.unpack q).isNaN) && decide (F.orderKey p < F.orderKey q)) := by
  cases nan : (F.unpack p).isNaN || (F.unpack q).isNaN
  · obtain ⟨hp, hq⟩ := Bool.or_eq_false_iff.mp nan
    rw [fpLess_unpack pos hp hq]
    rfl
  · exact fpLess_of_nan nan

theorem fpEqual_eq : fpEqual (F.unpack p) (F.unpack q) =
    (!((F.unpack p).isNaN || (F.unpack q).isNaN) && F.orderKey p == F.orderKey q) := by
  cases nan : (F.unpack p).isNaN || (F.unpack q).isNaN
  · obtain ⟨hp, hq⟩ := Bool.or_eq_false_iff.mp nan
    rw [fpEqual_unpack pos hp hq]
    rfl
  · rw [fpEqual, ← Bool.not_or, nan]
    rfl

theorem fpLess_or_fpEqual_eq : (fpLess (F.unpack p) (F.unpack q) || fpEqual (F.unpack p) (F.unpack q)) =
    (!((F.unpack p).isNaN || (F.unpack q).isNaN) && decide (F.orderKey p ≤ F.orderKey q)) := by
  rw [fpLess_eq pos, fpEqual_eq pos, ← Bool.and_or_distrib_left, beq_eq_decide, ← Bool.decide_or]
  simp only [Int.le_iff_lt_or_eq]

/-- FMIN and FMAX choose by the order of the values, and between zeros by their signs. -/
theorem fpMinMax_eq {w : Nat} (a b : BitVec w) {nan : BitVec w} (hnan : BitVec.ofNat w F.canonicalNaN = nan) (max : Prop)
    [Decidable max] : let x := F.unpack a.toNat; let y := F.unpack b.toNat
    let less := F.orderKey a.toNat < F.orderKey b.toNat ∨
      (F.orderKey a.toNat = F.orderKey b.toNat ∧ F.signOf a.toNat = true)
    BitVec.ofNat w (fpMinMax F max a.toNat b.toNat).1 =
      if x.isNaN && y.isNaN then nan else if x.isNaN then b else if y.isNaN then a
      else if max then (if less then b else a) else (if less then a else b) := by
  intro x y less
  have bits (c : BitVec w) : BitVec.ofNat w c.toNat = c := by rw [BitVec.ofNat_toNat, BitVec.setWidth_eq]
  rw [fpMinMax_fst]
  simp only [apply_ite (BitVec.ofNat w), bits, hnan]
  refine ite_congr rfl (fun _ => rfl) fun _ => ite_congr rfl (fun _ => rfl) fun hx => ite_congr rfl (fun _ => rfl) fun hy => ?_
  rw [Bool.not_eq_true] at hx hy
  have first : (fpLess x y || fpEqual x y && F.signOf a.toNat) = decide less := by
    rw [fpLess_unpack pos hx hy, fpEqual_unpack pos hx hy, Bool.decide_or, Bool.decide_and, Bool.decide_eq_true]
  rw [first]
  by_cases hm : max <;> by_cases hl : less <;> simp [hm, hl]

end FpFmt

/-! ## The obligations -/

/-- Settles O30: the sign is the top bit of the word, and the class is read off the fields. -/
theorem fpMovesSignsAndFclass : Obligations.FpMovesSignsAndFclass := by
  refine ⟨fun s rd rs1 rs2 on => ?_, fun s rd rs1 on => ?_, fun s rd rs1 on => ?_⟩
  · intro a b p q single magS magD signS signD
    have injectS (c : BitVec 32) : c.extractLsb' 31 1 ++ a.extractLsb' 0 31 = magS ||| (c &&& signS) :=
      sign_append_magnitude (w := 31) (by decide) (by decide) a c
    have injectD (c : BitVec 64) : c.extractLsb' 63 1 ++ p.extractLsb' 0 63 = magD ||| (c &&& signD) :=
      sign_append_magnitude (w := 63) (by decide) (by decide) p c
    refine ⟨?_, ?_, ?_, ?_, ?_, ?_, ?_, ?_, ?_, ?_, ?_, ?_⟩
    · exact completesF_of_guard on rfl (congrArg boxS (injectS b)) rfl
    · exact completesF_of_guard on rfl (congrArg boxS (extractLsb'_not (start := 31) (len := 1) b (by decide) ▸ injectS (~~~b))) rfl
    · exact completesF_of_guard on rfl (congrArg boxS (BitVec.extractLsb'_xor ▸ injectS (a ^^^ b))) rfl
    · exact completesF_of_guard on rfl (injectD q) rfl
    · exact completesF_of_guard on rfl (extractLsb'_not (start := 63) (len := 1) q (by decide) ▸ injectD (~~~q)) rfl
    · exact completesF_of_guard on rfl (BitVec.extractLsb'_xor ▸ injectD (p ^^^ q)) rfl
    · exact completesX_of_guard on rfl rfl
    · exact completesF_of_guard on rfl rfl rfl
    · exact completesX_of_guard on rfl rfl
    · exact completesF_of_guard on rfl rfl rfl
    · exact completesX_of_guard on rfl rfl
    · exact completesX_of_guard on rfl rfl
  · intro a sign ex frac k
    exact completesX_of_guard on rfl (congrArg _ (fpClass_toNat .single a))
  · intro a sign ex frac k
    exact completesX_of_guard on rfl (congrArg _ (fpClass_toNat .double a))

/-- Settles O31: the comparisons of values are those of the keys. -/
theorem fpComparisonsMinimumMaximum : Obligations.FpComparisonsMinimumMaximum := by
  refine ⟨⟨fun s rd rs1 rs2 on => ?_, fun s rd rs1 rs2 on => ?_⟩, fun s rd rs1 rs2 on => ?_, fun s rd rs1 rs2 on => ?_⟩
  · have pos : 0 < FpFmt.single.infPattern := by decide
    exact ⟨completesXF_of_guard on rfl (congrArg boolWord (FpFmt.fpEqual_eq pos)) rfl,
      completesXF_of_guard on rfl (congrArg boolWord (FpFmt.fpLess_eq pos)) rfl,
      completesXF_of_guard on rfl (congrArg boolWord (FpFmt.fpLess_or_fpEqual_eq pos)) rfl⟩
  · have pos : 0 < FpFmt.double.infPattern := by decide
    exact ⟨completesXF_of_guard on rfl (congrArg boolWord (FpFmt.fpEqual_eq pos)) rfl,
      completesXF_of_guard on rfl (congrArg boolWord (FpFmt.fpLess_eq pos)) rfl,
      completesXF_of_guard on rfl (congrArg boolWord (FpFmt.fpLess_or_fpEqual_eq pos)) rfl⟩
  · intro F a b x y flags less pick
    have pos : 0 < F.infPattern := by decide
    have canonical : BitVec.ofNat 32 F.canonicalNaN = 0x7FC00000#32 := by decide
    exact ⟨completesF_of_guard on rfl (congrArg boxS (FpFmt.fpMinMax_eq pos a b canonical False)) (fpMinMax_flags ..),
      completesF_of_guard on rfl (congrArg boxS (FpFmt.fpMinMax_eq pos a b canonical True)) (fpMinMax_flags ..)⟩
  · intro F a b x y flags less pick
    have pos : 0 < F.infPattern := by decide
    have canonical : BitVec.ofNat 64 F.canonicalNaN = 0x7FF8000000000000#64 := by decide
    exact ⟨completesF_of_guard on rfl (FpFmt.fpMinMax_eq pos a b canonical False) (fpMinMax_flags ..),
      completesF_of_guard on rfl (FpFmt.fpMinMax_eq pos a b canonical True) (fpMinMax_flags ..)⟩

end Sys2Proof.Machine
end

section
/-! PROOFS. Rounding to a multiple of a weight (spec/45_fp_single.md R563): what each mode picks, and conversions to integers
(R572). -/
namespace Sys2Proof.Machine

/-! ## The multiple a mode picks -/

/-- From x, strictly between n·u and (n + 1)·u, the mode goes to the larger magnitude (R563). -/
def GoesUp (mode : RoundingMode) (sign : Bool) (u x : ℚ) (n : Nat) : Prop :=
  match mode with
  | .rne => n * u + u / 2 < x ∨ (x = n * u + u / 2 ∧ n % 2 = 1)
  | .rtz => False
  | .rdn => sign = true
  | .rup => sign = false
  | .rmm => n * u + u / 2 ≤ x

/-- The magnitude x is rounded to a multiple of u, with the flag that says it was none. -/
inductive Rounds (mode : RoundingMode) (sign : Bool) (u x : ℚ) : Nat × Bool → Prop where
  | exact {n : Nat} (h : x = n * u) : Rounds mode sign u x (n, false)
  | down {n : Nat} (lower : n * u < x) (upper : x < n * u + u) (stays : ¬GoesUp mode sign u x n) : Rounds mode sign u x (n, true)
  | up {n : Nat} (lower : n * u < x) (upper : x < n * u + u) (goes : GoesUp mode sign u x n) : Rounds mode sign u x (n + 1, true)

theorem roundsUp_iff (mode : RoundingMode) (sign : Bool) {hi lo k : Nat} (inexact : lo ≠ 0) {v : ℚ} (hv : 0 < v) :
    roundsUp mode sign hi lo k = true ↔ GoesUp mode sign (2 ^ k * v) ((hi * 2 ^ k + lo) * v) hi := by
  have half : hi * (2 ^ k * v) + 2 ^ k * v / 2 = (hi * 2 ^ k + 2 ^ k / 2) * v := by ring
  have above : hi * (2 ^ k * v) + 2 ^ k * v / 2 < (hi * 2 ^ k + lo) * v ↔ 2 ^ k < 2 * lo := by
    rw [half, mul_lt_mul_iff_of_pos_right hv, add_lt_add_iff_left, div_lt_iff₀' two_pos]
    norm_cast
  have tie : (hi * 2 ^ k + lo) * v = hi * (2 ^ k * v) + 2 ^ k * v / 2 ↔ 2 * lo = 2 ^ k := by
    rw [half, mul_left_inj' hv.ne', add_right_inj, eq_div_iff two_ne_zero, mul_comm]
    norm_cast
  cases mode with
  | rne => simp [roundsUp, GoesUp, above, tie]
  | rtz => simp [roundsUp, GoesUp]
  | rdn | rup => simp [roundsUp, GoesUp, inexact]
  | rmm =>
    rw [GoesUp, le_iff_lt_or_eq, or_congr above (eq_comm.trans tie)]
    simp only [roundsUp, decide_eq_true_iff]
    omega

theorem roundShift_rounds (mode : RoundingMode) (sign : Bool) (m k : Nat) {v : ℚ} (hv : 0 < v) :
    Rounds mode sign (2 ^ k * v) (m * v) (roundShift mode sign m k) := by
  have value : (m : ℚ) = (m / 2 ^ k : Nat) * 2 ^ k + (m % 2 ^ k : Nat) := by
    exact_mod_cast (Nat.div_add_mod' m (2 ^ k)).symm
  have small : ((m % 2 ^ k : Nat) : ℚ) < 2 ^ k := by exact_mod_cast Nat.mod_lt m (Nat.two_pow_pos k)
  unfold roundShift
  dsimp only
  rw [value]
  generalize m / 2 ^ k = hi at *
  generalize m % 2 ^ k = lo at *
  split
  · next zero =>
    subst zero
    exact .exact (by push_cast; ring)
  · next inexact =>
    have lower : hi * (2 ^ k * v) < (hi * 2 ^ k + lo) * v := by
      have : (0 : ℚ) < lo := by exact_mod_cast Nat.pos_of_ne_zero inexact
      nlinarith
    have upper : (hi * 2 ^ k + lo) * v < hi * (2 ^ k * v) + 2 ^ k * v := by nlinarith
    split
    · next goes => exact .up lower upper ((roundsUp_iff mode sign inexact hv).mp goes)
    · next stays => exact .down lower upper (mt (roundsUp_iff mode sign inexact hv).mpr stays)

/-- The model's rounding to a multiple of 2^q is that of the mode. -/
theorem roundTo_rounds (mode : RoundingMode) (sign : Bool) (m : Nat) (e q : Int) :
    Rounds mode sign (2 ^ q) (finValue false m e) (roundTo mode sign m e q) := by
  rw [finValue_false, roundTo]
  split
  · next exact =>
    refine .exact ?_
    rw [Nat.cast_mul, Nat.cast_pow, Nat.cast_ofNat, mul_assoc, ← zpow_natCast, ← zpow_add₀ two_ne_zero]
    congr 2
    omega
  · next inexact =>
    have weight : (2 : ℚ) ^ q = 2 ^ (q - e).toNat * 2 ^ e := by
      rw [← zpow_natCast, ← zpow_add₀ two_ne_zero]
      congr 1
      omega
    rw [weight]
    exact roundShift_rounds mode sign m _ (by positivity)

namespace Rounds
variable {mode : RoundingMode} {sign : Bool} {u x : ℚ} {r : Nat × Bool}

/-- The flag says whether rounding changed the value. -/
theorem inexact_iff (h : Rounds mode sign u x r) : r.2 = true ↔ r.1 * u ≠ x := by
  cases h with
  | exact h => simp [h]
  | down lower => simp [lower.ne]
  | up _ upper =>
    push_cast
    rw [add_one_mul]
    simp [upper.ne']

/-- Every value has a multiple of u below it, the next one above it, and goes to one of the two. -/
theorem exists_neighbours (hu : 0 < u) (h : Rounds mode sign u x r) : ∃ n : Nat, n * u ≤ x ∧ x < n * u + u ∧
    (r.1 = n ∧ ¬(n * u < x ∧ GoesUp mode sign u x n) ∨ r.1 = n + 1 ∧ n * u < x ∧ GoesUp mode sign u x n) := by
  cases h with
  | @exact n h => exact ⟨n, h.ge, by linarith, .inl ⟨rfl, fun up => absurd h up.1.ne'⟩⟩
  | @down n lower upper stays => exact ⟨n, lower.le, upper, .inl ⟨rfl, fun up => stays up.2⟩⟩
  | @up n lower upper goes => exact ⟨n, lower.le, upper, .inr ⟨rfl, lower, goes⟩⟩

end Rounds

/-! ## Conversions to integers (R572) -/

/-- The integer n is what the mode rounds x to (R563, R572). -/
def RoundsToInteger (mode : RoundingMode) (x : ℚ) (n : Int) : Prop :=
  match mode with
  | .rtz => |(n : ℚ)| ≤ |x| ∧ |x| - |(n : ℚ)| < 1 ∧ 0 ≤ (n : ℚ) * x
  | .rdn => n = ⌊x⌋
  | .rup => n = ⌈x⌉
  | .rne => |x - n| ≤ 1 / 2 ∧ (|x - n| = 1 / 2 → n % 2 = 0)
  | .rmm => |x - n| ≤ 1 / 2 ∧ (|x - n| = 1 / 2 → |x| < |(n : ℚ)|)

theorem Rounds.roundsToInteger {mode : RoundingMode} {sign : Bool} {y : ℚ} {r : Nat × Bool} (h : Rounds mode sign 1 y r)
    (hy : 0 ≤ y) : RoundsToInteger mode (if sign then -y else y) (if sign then -(r.1 : Int) else r.1) := by
  obtain ⟨n, lower, upper, h⟩ := h.exists_neighbours one_pos
  rw [mul_one] at lower upper
  have nearest (m : Nat) : |(if sign then -y else y) - ((if sign then -(m : Int) else m : Int) : ℚ)| = |y - m| := by
    cases sign
    · simp
    · rw [if_pos rfl, if_pos rfl, ← abs_neg]
      push_cast
      ring_nf
  have size (m : Nat) : |((if sign then -(m : Int) else m : Int) : ℚ)| = m := by
    cases sign <;> simp
  have size' : |if sign then -y else y| = y := by
    cases sign <;> simp [abs_of_nonneg hy]
  cases mode with
  | rtz =>
    obtain ⟨hr, -⟩ | ⟨-, -, goes⟩ := h
    · rw [RoundsToInteger, size, size', hr]
      refine ⟨lower, by linarith, ?_⟩
      cases sign <;> simp <;> positivity
    · exact goes.elim
  | rdn =>
    rw [RoundsToInteger, eq_comm, Int.floor_eq_iff]
    obtain ⟨hr, stays⟩ | ⟨hr, inexact, goes⟩ := h <;> cases sign <;> simp_all [GoesUp] <;> linarith
  | rup =>
    rw [RoundsToInteger, eq_comm, Int.ceil_eq_iff]
    obtain ⟨hr, stays⟩ | ⟨hr, inexact, goes⟩ := h <;> cases sign <;> simp_all [GoesUp] <;> linarith
  | rne =>
    rw [RoundsToInteger, nearest, abs_le]
    obtain ⟨hr, stays⟩ | ⟨hr, inexact, goes⟩ := h
    · have half : y ≤ n + 1 / 2 ∧ (y = n + 1 / 2 → n % 2 = 0) := by
        simp only [GoesUp, mul_one, not_and, not_or, not_lt] at stays
        by_cases inexact : n < y
        · exact ⟨(stays inexact).1, fun tie => by have := (stays inexact).2 tie; omega⟩
        · exact ⟨by linarith, fun tie => by linarith⟩
      rw [hr, abs_of_nonneg (by linarith)]
      refine ⟨⟨by linarith, by linarith⟩, fun tie => ?_⟩
      have even := half.2 (by linarith)
      split <;> omega
    · have half : n + 1 / 2 ≤ y ∧ (y = n + 1 / 2 → n % 2 = 1) := by
        simp only [GoesUp, mul_one] at goes
        obtain goes | ⟨goes, odd⟩ := goes
        · exact ⟨goes.le, fun tie => by linarith⟩
        · exact ⟨goes.ge, fun _ => odd⟩
      rw [hr, Nat.cast_succ, abs_of_neg (by linarith)]
      refine ⟨⟨by linarith, by linarith⟩, fun tie => ?_⟩
      have odd := half.2 (by linarith)
      split <;> omega
  | rmm =>
    rw [RoundsToInteger, nearest, size, size', abs_le]
    obtain ⟨hr, stays⟩ | ⟨hr, inexact, goes⟩ := h
    · have half : y < n + 1 / 2 := by
        by_contra far
        exact stays ⟨by linarith, by simp only [GoesUp, mul_one]; linarith⟩
      rw [hr, abs_of_nonneg (by linarith)]
      exact ⟨⟨by linarith, by linarith⟩, fun tie => by linarith⟩
    · simp only [GoesUp, mul_one] at goes
      rw [hr, Nat.cast_succ]
      exact ⟨⟨by linarith, by linarith⟩, fun _ => upper⟩

/-- A finite value is rounded, and the result is cut to the range. -/
theorem fpToInt_of_finite {F : FpFmt} {p : Nat} {t : Bool} {k : Nat} {e : Int} (h : F.unpack p = .fin t k e)
    (m : RoundingMode) (lo hi : Int) : ∃ n : Int, RoundsToInteger m (finValue t k e) n ∧ fpToInt F m lo hi p =
      if n < lo then (lo, FFlags.nv) else if hi < n then (hi, FFlags.nv)
      else (n, if (n : ℚ) = finValue t k e then FFlags.none else FFlags.nx) := by
  have rounds : Rounds m t 1 (finValue false k e) (roundTo m t k e 0) := by
    simpa using roundTo_rounds m t k e 0
  refine ⟨if t then -((roundTo m t k e 0).1 : Int) else (roundTo m t k e 0).1, ?_, ?_⟩
  · rw [finValue_eq_ite]
    exact rounds.roundsToInteger (finValue_false_nonneg k e)
  · have inexact : (roundTo m t k e 0).2 =
        !decide (((if t then -((roundTo m t k e 0).1 : Int) else (roundTo m t k e 0).1 : Int) : ℚ) = finValue t k e) := by
      rw [Bool.eq_iff_iff, rounds.inexact_iff, finValue_eq_ite t k e, mul_one]
      cases t <;> simp
    rw [fpToInt, h]
    simp only [roundToInt, inexact, FFlags.when, Bool.not_eq_true', decide_eq_false_iff_not, ite_not]

theorem fpToInt_of_nan {F : FpFmt} {p : Nat} {b : Bool} (h : F.unpack p = .nan b) (m : RoundingMode) (lo hi : Int) :
    fpToInt F m lo hi p = (hi, FFlags.nv) := by
  rw [fpToInt, h]

theorem fpToInt_of_inf {F : FpFmt} {p : Nat} {t : Bool} (h : F.unpack p = .inf t) (m : RoundingMode) (lo hi : Int) :
    fpToInt F m lo hi p = (if t then lo else hi, FFlags.nv) := by
  rw [fpToInt, h]

/-- Settles O33: the rounded magnitude with its sign, inside the range or not. -/
theorem conversionToIntegerSaturates : Obligations.ConversionToIntegerSaturates :=
  ⟨fun m _ lo hi _ _ => ⟨fun _ h => fpToInt_of_nan h m lo hi, fun _ h => fpToInt_of_inf h m lo hi,
      fun _ _ _ h => fpToInt_of_finite h m lo hi⟩,
    fun m _ lo hi _ _ => ⟨fun _ h => fpToInt_of_nan h m lo hi, fun _ h => fpToInt_of_inf h m lo hi,
      fun _ _ _ h => fpToInt_of_finite h m lo hi⟩⟩

end Sys2Proof.Machine
end

section
/-! PROOFS. Rounding to a format (spec/45_fp_single.md R563 to R565): where it ends, and that it ends at the right neighbour. -/
namespace Sys2Proof.Machine

/-! ## Reaching a bound -/

/-- The mode takes x to top or beyond, if under is the last multiple below top and top an even one. -/
def ReachesTop (mode : RoundingMode) (sign : Bool) (x under top : ℚ) : Prop :=
  if mode = .rne ∨ mode = .rmm then (under + top) / 2 ≤ x
  else if (mode = .rdn ∧ sign = true) ∨ (mode = .rup ∧ sign = false) then under < x else top ≤ x

theorem reachesTop_of_le {mode : RoundingMode} {sign : Bool} {x under top : ℚ} (below : under < top) (h : top ≤ x) :
    ReachesTop mode sign x under top := by
  unfold ReachesTop
  split_ifs <;> linarith

theorem not_reachesTop_of_le {mode : RoundingMode} {sign : Bool} {x under top : ℚ} (below : under < top) (h : x ≤ under) :
    ¬ReachesTop mode sign x under top := by
  unfold ReachesTop
  split_ifs <;> linarith

theorem reachesTop_succ_iff {mode : RoundingMode} {sign : Bool} {u x : ℚ} {n : Nat} (odd : n % 2 = 1)
    (hu : 0 < u) (upper : x < n * u + u) :
    ReachesTop mode sign x (n * u) (n * u + u) ↔ n * u < x ∧ GoesUp mode sign u x n := by
  have half : (n * u + (n * u + u)) / 2 ≤ x ↔ n * u + u / 2 ≤ x := by
    constructor <;> intro <;> linarith
  cases mode with
  | rne =>
    simp only [ReachesTop, GoesUp, true_or, if_true, half, odd, and_true, eq_comm (a := x), ← le_iff_lt_or_eq, iff_and_self]
    exact fun h => by linarith only [h, hu]
  | rmm =>
    simp only [ReachesTop, GoesUp, or_true, if_true, half, iff_and_self]
    exact fun h => by linarith only [h, hu]
  | rtz => simp [ReachesTop, GoesUp, upper]
  | rdn | rup => cases sign <;> simp [ReachesTop, GoesUp, upper]

namespace Rounds
variable {mode : RoundingMode} {sign : Bool} {u x : ℚ} {r : Nat × Bool}

theorem le_of_mul_le (hu : 0 < u) (h : Rounds mode sign u x r) {N : Nat} (hN : N * u ≤ x) : N ≤ r.1 := by
  obtain ⟨n, -, upper, h⟩ := h.exists_neighbours hu
  have : (N : ℚ) < (n + 1 : Nat) := by
    rw [← mul_lt_mul_iff_of_pos_right hu]
    push_cast
    linarith
  have : N < n + 1 := by exact_mod_cast this
  omega

theorem le_of_le_mul (hu : 0 < u) (h : Rounds mode sign u x r) {N : Nat} (hN : x ≤ N * u) : r.1 ≤ N := by
  obtain ⟨n, lower, -, ⟨hr, -⟩ | ⟨hr, inexact, -⟩⟩ := h.exists_neighbours hu
  · have : (n : ℚ) ≤ N := (mul_le_mul_iff_of_pos_right hu).mp (lower.trans hN)
    rw [hr]
    exact_mod_cast this
  · have : (n : ℚ) < N := (mul_lt_mul_iff_of_pos_right hu).mp (inexact.trans_le hN)
    rw [hr]
    exact_mod_cast this

/-- Rounding ends at an even multiple or beyond exactly if it reaches it from the multiple below. -/
theorem le_iff_reachesTop (hu : 0 < u) (h : Rounds mode sign u x r) {N : Nat} (even : N % 2 = 0) :
    N ≤ r.1 ↔ ReachesTop mode sign x (N * u - u) (N * u) := by
  have below : N * u - u < N * u := by linarith
  obtain ⟨n, lower, upper, h'⟩ := h.exists_neighbours hu
  rcases Nat.lt_trichotomy N (n + 1) with hN | rfl | hN
  · have : (N : ℚ) * u ≤ n * u := by gcongr; omega
    exact iff_of_true (by omega) (reachesTop_of_le below (by linarith))
  · push_cast
    rw [add_one_mul, add_sub_cancel_right, reachesTop_succ_iff (by omega) hu upper]
    constructor
    · intro hr
      obtain ⟨hr', -⟩ | ⟨-, goes⟩ := h'
      · omega
      · exact goes
    · intro goes
      obtain ⟨-, stays⟩ | ⟨hr, -⟩ := h'
      · exact absurd goes stays
      · omega
  · have : ((n + 2 : Nat) : ℚ) * u ≤ N * u := by gcongr; omega
    push_cast at this
    exact iff_of_false (by omega) (not_reachesTop_of_le below (by linarith))

end Rounds

/-! ## Where the last bit is kept -/

namespace FpFmt

/-- The exponent of the last bit kept with unbounded exponent. -/
def freeExp (F : FpFmt) (m : Nat) (e : Int) : Int := e + (m.log2 : Int) - (F.fbits : Int)

/-- The exponent of the last bit kept. -/
def lastExp (F : FpFmt) (m : Nat) (e : Int) : Int := max (F.freeExp m e) F.minExp

/-- 1 if rounding with unbounded exponent goes up to the next power of two. -/
def carry (F : FpFmt) (mode : RoundingMode) (sign : Bool) (m : Nat) (e : Int) : Int :=
  if (roundTo mode sign m e (F.freeExp m e)).1 = 2 ^ (F.fbits + 1) then 1 else 0

/-- The magnitude of the rounded value's pattern, past that of the infinity if it overflows. -/
def roundedMag (F : FpFmt) (mode : RoundingMode) (sign : Bool) (m : Nat) (e : Int) : Nat :=
  (F.lastExp m e - F.minExp).toNat * 2 ^ F.fbits + (roundTo mode sign m e (F.lastExp m e)).1

theorem bias_pos (F : FpFmt) (he : 2 ≤ F.ebits) : 1 ≤ F.bias := by
  have : 2 ^ 1 ≤ 2 ^ (F.ebits - 1) := Nat.pow_le_pow_right two_pos (by omega)
  rw [bias]
  omega

theorem infPattern_eq (F : FpFmt) (he : 1 ≤ F.ebits) : F.infPattern = (2 * F.bias + 1) * 2 ^ F.fbits := by
  have exponents : 2 ^ F.ebits = 2 * 2 ^ (F.ebits - 1) := by rw [← Nat.pow_succ', Nat.succ_eq_add_one, Nat.sub_add_cancel he]
  have := Nat.two_pow_pos (F.ebits - 1)
  rw [infPattern, bias]
  congr 1
  omega

theorem roundPack_eq (F : FpFmt) (mode : RoundingMode) (sign : Bool) {m : Nat} (nonzero : m ≠ 0) (e : Int) :
    roundPack F mode sign m e =
      if F.infPattern ≤ F.roundedMag mode sign m e then
        (F.withSign sign (overflowPattern F mode sign), FFlags.of ||| FFlags.nx)
      else
        (F.withSign sign (F.roundedMag mode sign m e), FFlags.when FFlags.nx (roundTo mode sign m e (F.lastExp m e)).2 |||
          FFlags.when FFlags.uf ((roundTo mode sign m e (F.lastExp m e)).2 &&
            decide (F.freeExp m e + F.carry mode sign m e < F.minExp))) :=
  if_neg nonzero

section
variable (F : FpFmt) (mode : RoundingMode) (sign : Bool) {m : Nat} (nonzero : m ≠ 0) (e : Int)

theorem carry_le_one : F.carry mode sign m e ≤ 1 := by
  unfold carry
  split <;> decide

theorem carry_nonneg : 0 ≤ F.carry mode sign m e := by
  unfold carry
  split <;> decide

theorem finValue_lt : finValue false m e < (2 : ℚ) ^ (F.freeExp m e + F.fbits + 1) := by
  have bound : (m : ℚ) < ((2 ^ (m.log2 + 1) : Nat) : ℚ) := by exact_mod_cast Nat.lt_log2_self
  rw [finValue_false, freeExp, sub_add_cancel, add_assoc, add_comm, zpow_add₀ two_ne_zero, ← Nat.cast_succ, zpow_natCast]
  gcongr
  exact_mod_cast bound

include nonzero

theorem le_finValue : (2 : ℚ) ^ (F.freeExp m e + F.fbits) ≤ finValue false m e := by
  have bound : ((2 ^ m.log2 : Nat) : ℚ) ≤ m := by exact_mod_cast Nat.log2_self_le nonzero
  rw [finValue_false, freeExp, sub_add_cancel, add_comm, zpow_add₀ two_ne_zero, zpow_natCast]
  gcongr
  exact_mod_cast bound

omit nonzero in
theorem finValue_lt_mul : finValue false m e < (2 ^ (F.fbits + 1) : Nat) * 2 ^ F.lastExp m e := by
  refine (F.finValue_lt e).trans_le ?_
  rw [Nat.cast_pow, Nat.cast_ofNat, ← zpow_natCast, ← zpow_add₀ two_ne_zero]
  refine zpow_le_zpow_right₀ one_le_two ?_
  have free : F.freeExp m e ≤ F.lastExp m e := le_max_left _ _
  push_cast
  omega

theorem mul_le_finValue (normal : F.minExp ≤ F.freeExp m e) :
    (2 ^ F.fbits : Nat) * 2 ^ F.lastExp m e ≤ finValue false m e := by
  rw [lastExp, max_eq_left normal, Nat.cast_pow, Nat.cast_ofNat, ← zpow_natCast, ← zpow_add₀ two_ne_zero, add_comm]
  exact F.le_finValue nonzero e

/-- The bits kept fill the precision, but for a subnormal; rounding up can reach the power of two above. -/
theorem roundTo_lastExp_bounds :
    (F.minExp ≤ F.freeExp m e → 2 ^ F.fbits ≤ (roundTo mode sign m e (F.lastExp m e)).1) ∧
    (roundTo mode sign m e (F.lastExp m e)).1 ≤ 2 ^ (F.fbits + 1) := by
  have rounds := roundTo_rounds mode sign m e (F.lastExp m e)
  have weight : (0 : ℚ) < 2 ^ F.lastExp m e := by positivity
  exact ⟨fun h => rounds.le_of_mul_le weight (F.mul_le_finValue nonzero e h),
    rounds.le_of_le_mul weight (F.finValue_lt_mul e).le⟩

/-- The bound of a power of two is reached exactly when the unbounded exponent, with its carry, is as large. -/
theorem reachesTop_two_pow_iff (k : Int) :
    ReachesTop mode sign (finValue false m e) (2 ^ k * (1 - 2 ^ (-(F.fbits + 1 : Int)))) (2 ^ k) ↔
      k - F.fbits ≤ F.freeExp m e + F.carry mode sign m e := by
  have lower := F.le_finValue nonzero e
  have upper := F.finValue_lt (m := m) e
  have under : (2 : ℚ) ^ k * (1 - 2 ^ (-(F.fbits + 1 : Int))) = 2 ^ k - 2 ^ (k - F.fbits - 1) := by
    rw [mul_one_sub, ← zpow_add₀ two_ne_zero]
    congr 2
    ring
  have below : (2 : ℚ) ^ k - 2 ^ (k - F.fbits - 1) < 2 ^ k := by
    have : (0 : ℚ) < 2 ^ (k - F.fbits - 1) := by positivity
    linarith
  have nonneg := F.carry_nonneg mode sign (m := m) e
  have le_one := F.carry_le_one mode sign (m := m) e
  rw [under]
  rcases lt_trichotomy k (F.freeExp m e + F.fbits + 1) with hk | hk | hk
  · refine iff_of_true (reachesTop_of_le below (le_trans ?_ lower)) (by omega)
    exact zpow_le_zpow_right₀ one_le_two (by omega)
  · have rounds := roundTo_rounds mode sign m e (F.freeExp m e)
    have weight : (0 : ℚ) < 2 ^ F.freeExp m e := by positivity
    have top : (2 : ℚ) ^ k = (2 ^ (F.fbits + 1) : Nat) * 2 ^ F.freeExp m e := by
      rw [Nat.cast_pow, Nat.cast_ofNat, ← zpow_natCast, ← zpow_add₀ two_ne_zero, hk]
      congr 1
      push_cast
      ring
    have bound := rounds.le_of_le_mul (N := 2 ^ (F.fbits + 1)) weight (by rw [← top, hk]; exact upper.le)
    rw [show k - F.fbits - 1 = F.freeExp m e by omega, top, ← rounds.le_iff_reachesTop weight (by omega), carry]
    split <;> omega
  · refine iff_of_false (not_reachesTop_of_le below ?_) (by omega)
    have half : (2 : ℚ) ^ k = 2 ^ (k - 1) * 2 := by rw [← zpow_add_one₀ two_ne_zero, sub_add_cancel]
    have small : (2 : ℚ) ^ (k - F.fbits - 1) ≤ 2 ^ (k - 1) := zpow_le_zpow_right₀ one_le_two (by omega)
    have large : (2 : ℚ) ^ (F.freeExp m e + F.fbits + 1) ≤ 2 ^ (k - 1) := zpow_le_zpow_right₀ one_le_two (by omega)
    linarith

omit nonzero in
/-- A mantissa between w and 2w counts as one more w, or as two if it is all of 2w. -/
theorem mul_le_mul_add_iff {K k r w : Nat} (pos : 0 < w) (normal : w ≤ r) (bounded : r ≤ 2 * w) :
    K * w ≤ k * w + r ↔ K ≤ k + 1 + if r = 2 * w then 1 else 0 := by
  split
  · next full => rw [full, ← Nat.add_mul, Nat.mul_le_mul_right_iff pos]
  · next short =>
    constructor
    · intro large
      by_contra below
      have := Nat.mul_le_mul_right w (show k + 2 ≤ K by omega)
      rw [Nat.add_mul] at this
      omega
    · intro large
      have := Nat.mul_le_mul_right w large
      rw [Nat.add_zero, Nat.add_mul k 1] at this
      omega

/-- Overflow is judged by the exponent rounded with unbounded exponent. -/
theorem infPattern_le_roundedMag_iff (he : 2 ≤ F.ebits) :
    F.infPattern ≤ F.roundedMag mode sign m e ↔ F.bias + 1 - F.fbits ≤ F.freeExp m e + F.carry mode sign m e := by
  have bias_pos : 1 ≤ F.bias := F.bias_pos he
  have weight := Nat.two_pow_pos F.fbits
  have double : 2 ^ (F.fbits + 1) = 2 * 2 ^ F.fbits := Nat.pow_succ'
  have minExp : F.minExp = 1 - F.bias - F.fbits := rfl
  have nonneg := F.carry_nonneg mode sign (m := m) e
  obtain ⟨normal, bounded⟩ := F.roundTo_lastExp_bounds mode sign nonzero e
  rw [F.infPattern_eq (by omega), roundedMag]
  rcases lt_or_ge (F.freeExp m e) F.minExp with h | h
  · have last : F.lastExp m e = F.minExp := max_eq_right h.le
    have le_one := F.carry_le_one mode sign (m := m) e
    rw [last, sub_self, Int.toNat_zero, Nat.zero_mul, Nat.zero_add]
    rw [last, double] at bounded
    refine iff_of_false (fun top => ?_) (by omega)
    have : 3 * 2 ^ F.fbits ≤ (2 * F.bias + 1) * 2 ^ F.fbits := Nat.mul_le_mul_right _ (by omega)
    omega
  · have last : F.lastExp m e = F.freeExp m e := max_eq_left h
    obtain ⟨k, hk⟩ : ∃ k : Nat, F.freeExp m e = F.minExp + k := ⟨(F.freeExp m e - F.minExp).toNat, by omega⟩
    have normal := normal h
    rw [last] at normal bounded
    rw [last, carry, show (F.freeExp m e - F.minExp).toNat = k by omega]
    generalize (roundTo mode sign m e (F.freeExp m e)).1 = r at *
    rw [double] at bounded ⊢
    rw [mul_le_mul_add_iff weight normal bounded]
    split <;> omega

/-! ## The patterns next to a value -/

omit nonzero in
/-- A multiple n of the last bit's weight, with the exponent field that goes with it, is a pattern of that value. -/
theorem units_lastExp {n : Nat} (normal : F.minExp ≤ F.freeExp m e → 2 ^ F.fbits ≤ n) (bounded : n ≤ 2 ^ (F.fbits + 1)) :
    (F.units ((F.lastExp m e - F.minExp).toNat * 2 ^ F.fbits + n) : ℚ) * 2 ^ F.minExp = n * 2 ^ F.lastExp m e := by
  have last : F.minExp ≤ F.lastExp m e := le_max_right _ _
  rw [F.units_mantissa _ bounded]
  · rw [Nat.cast_mul, Nat.cast_pow, Nat.cast_ofNat, mul_assoc, ← zpow_natCast, ← zpow_add₀ two_ne_zero]
    congr 2
    omega
  · rcases lt_or_ge (F.freeExp m e) F.minExp with h | h
    · refine .inl ?_
      rw [lastExp, max_eq_right h.le, sub_self]
      rfl
    · exact .inr (normal h)

/-- No pattern lies between a multiple of the last bit's weight and the next one. -/
theorem units_le_or_le {n : Nat} (lower : n * 2 ^ F.lastExp m e ≤ finValue false m e)
    (upper : finValue false m e < n * 2 ^ F.lastExp m e + 2 ^ F.lastExp m e) (p : Nat) :
    F.units p * (2 : ℚ) ^ F.minExp ≤ n * 2 ^ F.lastExp m e ∨
      n * 2 ^ F.lastExp m e + 2 ^ F.lastExp m e ≤ F.units p * (2 : ℚ) ^ F.minExp := by
  have weight : (0 : ℚ) < 2 ^ F.lastExp m e := by positivity
  have below : n < 2 ^ (F.fbits + 1) := by
    have := (mul_lt_mul_iff_of_pos_right weight).mp (lower.trans_lt (F.finValue_lt_mul e))
    exact_mod_cast this
  have normal (h : F.minExp ≤ F.freeExp m e) : 2 ^ F.fbits ≤ n := by
    have := (F.mul_le_finValue nonzero e h).trans_lt upper
    rw [← add_one_mul, mul_lt_mul_iff_of_pos_right weight, ← Nat.cast_succ] at this
    exact Nat.le_of_lt_succ (by exact_mod_cast this)
  rw [← add_one_mul, ← Nat.cast_succ, ← F.units_lastExp e normal below.le,
    ← F.units_lastExp e (n := n.succ) (fun h => (normal h).trans n.le_succ) below,
    mul_le_mul_iff_of_pos_right (by positivity), mul_le_mul_iff_of_pos_right (by positivity), Nat.cast_le, Nat.cast_le,
    F.units_strictMono.le_iff_le, F.units_strictMono.le_iff_le]
  omega

/-- A result that does not overflow is a finite value of the sign. -/
theorem unpack_roundedMag (finite : F.roundedMag mode sign m e < F.infPattern) :
    ∃ k j, F.unpack (F.withSign sign (F.roundedMag mode sign m e)) = .fin sign k j ∧
      finValue false k j = (roundTo mode sign m e (F.lastExp m e)).1 * 2 ^ F.lastExp m e := by
  have fits := finite.trans F.infPattern_lt_signWeight
  obtain ⟨k, j, h⟩ := unpack_of_finite (F.magOf_withSign sign fits ▸ finite)
  rw [F.signOf_withSign sign fits] at h
  obtain ⟨normal, bounded⟩ := F.roundTo_lastExp_bounds mode sign nonzero e
  refine ⟨k, j, h, ?_⟩
  rw [finValue_of_unpack h, F.magOf_withSign sign fits, ← F.units_lastExp e normal bounded]
  rfl

end

end FpFmt

/-! ## The right neighbour -/

namespace Rounds
variable {mode : RoundingMode} {sign : Bool} {u x v : ℚ} {r : Nat × Bool}

theorem half_le_of_goesUp {n : Nat} (to_nearest : mode = .rne ∨ mode = .rmm) (goes : GoesUp mode sign u x n) :
    n * u + u / 2 ≤ x := by
  obtain rfl | rfl := to_nearest
  · exact goes.elim le_of_lt fun middle => middle.1.ge
  · exact goes

theorem le_half_of_not_goesUp {n : Nat} (hu : 0 < u) (to_nearest : mode = .rne ∨ mode = .rmm)
    (stays : ¬(n * u < x ∧ GoesUp mode sign u x n)) : x ≤ n * u + u / 2 := by
  by_contra above
  have above := not_le.mp above
  refine stays ⟨by linarith, ?_⟩
  obtain rfl | rfl := to_nearest
  · exact .inl above
  · exact above.le

theorem toward (hu : 0 < u) (h : Rounds mode sign u x r) : (mode = .rtz → r.1 * u ≤ x) ∧
    (mode = .rdn → if sign then x ≤ r.1 * u else r.1 * u ≤ x) ∧ (mode = .rup → if sign then r.1 * u ≤ x else x ≤ r.1 * u) := by
  obtain ⟨n, lower, upper, ⟨hr, stays⟩ | ⟨hr, inexact, goes⟩⟩ := h.exists_neighbours hu
  · rw [hr]
    cases mode <;> cases sign <;> simp_all [GoesUp]
  · rw [hr]
    cases mode <;> cases sign <;> simp_all [GoesUp, add_one_mul, upper.le]

variable (hu : 0 < u) (h : Rounds mode sign u x r) (gap : ∀ n : Nat, n * u ≤ x → x < n * u + u → v ≤ n * u ∨ n * u + u ≤ v)
include hu h gap

theorem not_between : ¬(min x (r.1 * u) < v ∧ v < max x (r.1 * u)) := by
  obtain ⟨n, lower, upper, ⟨hr, -⟩ | ⟨hr, -⟩⟩ := h.exists_neighbours hu
  · rw [hr, min_eq_right lower, max_eq_left lower]
    rintro ⟨above, below⟩
    rcases gap n lower upper with h | h <;> linarith
  · rw [hr, Nat.cast_succ, add_one_mul, min_eq_left upper.le, max_eq_right upper.le]
    rintro ⟨above, below⟩
    rcases gap n lower upper with h | h <;> linarith

theorem nearest (to_nearest : mode = .rne ∨ mode = .rmm) : |r.1 * u - x| ≤ |v - x| := by
  obtain ⟨n, lower, upper, ⟨hr, stays⟩ | ⟨hr, inexact, goes⟩⟩ := h.exists_neighbours hu
  · have half := le_half_of_not_goesUp hu to_nearest stays
    rw [hr, abs_of_nonpos (by linarith)]
    rcases gap n lower upper with h | h
    · rw [abs_of_nonpos (by linarith)]
      linarith
    · rw [abs_of_nonneg (by linarith)]
      linarith
  · have half := half_le_of_goesUp to_nearest goes
    rw [hr, Nat.cast_succ, add_one_mul, abs_of_nonneg (by linarith)]
    rcases gap n lower upper with h | h
    · rw [abs_of_nonpos (by linarith)]
      linarith
    · rw [abs_of_nonneg (by linarith)]
      linarith

/-- Of two values as near as each other, the mode picks the even multiple or the larger one. -/
theorem tie (other : v ≠ r.1 * u) (equal : |r.1 * u - x| = |v - x|) :
    (mode = .rne → r.1 % 2 = 0) ∧ (mode = .rmm → x < r.1 * u) := by
  have opposite : v = 2 * x - r.1 * u := by
    rcases abs_eq_abs.mp equal with h | h
    · exact absurd (sub_left_injective h).symm other
    · linarith
  obtain ⟨n, lower, upper, ⟨hr, stays⟩ | ⟨hr, inexact, goes⟩⟩ := h.exists_neighbours hu
  · rw [hr] at other opposite ⊢
    have half : n * u + u / 2 ≤ x := by
      rcases gap n lower upper with h | h
      · exact absurd (by linarith) other
      · linarith
    have inexact : n * u < x := by linarith
    constructor
    · rintro rfl
      have middle : x = n * u + u / 2 := le_antisymm (le_half_of_not_goesUp hu (.inl rfl) stays) half
      have even : ¬n % 2 = 1 := fun odd => stays ⟨inexact, .inr ⟨middle, odd⟩⟩
      omega
    · rintro rfl
      exact absurd ⟨inexact, half⟩ stays
  · rw [hr, Nat.cast_succ, add_one_mul] at opposite
    rw [hr, Nat.cast_succ, add_one_mul]
    refine ⟨?_, fun _ => upper⟩
    rintro rfl
    have half : x ≤ n * u + u / 2 := by
      rcases gap n lower upper with h | h <;> linarith
    obtain above | ⟨-, odd⟩ := goes
    · exact absurd half (not_le_of_gt above)
    · omega

end Rounds

/-! ## The obligation -/

theorem overflowPattern_eq_ite (F : FpFmt) (mode : RoundingMode) (sign : Bool) : overflowPattern F mode sign =
    if mode = .rtz ∨ (mode = .rdn ∧ sign = false) ∨ (mode = .rup ∧ sign = true) then F.infPattern - 1 else F.infPattern := by
  cases mode <;> cases sign <;> rfl

/-- The flags of a result that does not overflow. -/
theorem inexact_flags : ∀ inexact tiny : Bool,
    let flags := FFlags.when FFlags.nx inexact ||| FFlags.when FFlags.uf (inexact && tiny)
    flags &&& FFlags.of = 0#5 ∧ (flags &&& FFlags.uf ≠ 0#5 ↔ tiny = true ∧ flags &&& FFlags.nx ≠ 0#5) ∧
      flags &&& (FFlags.nv ||| FFlags.dz) = 0#5 ∧ (flags &&& FFlags.nx = 0#5 ↔ inexact = false) := by decide

theorem overflow_flags : let flags := FFlags.of ||| FFlags.nx
    flags &&& FFlags.of ≠ 0#5 ∧ ¬flags &&& FFlags.uf ≠ 0#5 ∧ flags &&& (FFlags.nv ||| FFlags.dz) = 0#5 := by decide

/-- The last bit of a pattern is that of its magnitude's multiple. -/
theorem FpFmt.withSign_roundedMag_mod_two (F : FpFmt) (hf : 1 ≤ F.fbits) (mode : RoundingMode) (sign : Bool) (m : Nat) (e : Int) :
    F.withSign sign (F.roundedMag mode sign m e) % 2 = (roundTo mode sign m e (F.lastExp m e)).1 % 2 := by
  have even {k : Nat} (hk : 1 ≤ k) : 2 ^ k % 2 = 0 := Nat.mod_eq_zero_of_dvd (dvd_pow_self 2 (by omega))
  have magnitude : F.roundedMag mode sign m e % 2 = (roundTo mode sign m e (F.lastExp m e)).1 % 2 := by
    rw [roundedMag, Nat.add_mod, Nat.mul_mod, even hf]
    simp
  cases sign
  · exact magnitude
  · rw [withSign, if_pos rfl, Nat.add_mod, signWeight, even (by omega), magnitude]
    simp

/-- Settles O34: the pattern chosen is the multiple of the last bit's weight that the mode picks. -/
theorem roundingPicksTheRightNeighbour : Obligations.RoundingPicksTheRightNeighbour := by
  intro F mode sign m e hF nonzero out x away reaches large tiny
  obtain ⟨hf, he⟩ : 1 ≤ F.fbits ∧ 2 ≤ F.ebits := by
    obtain rfl | rfl := hF <;> decide
  have overflows : large ↔ F.infPattern ≤ F.roundedMag mode sign m e :=
    (F.reachesTop_two_pow_iff mode sign nonzero e _).trans (F.infPattern_le_roundedMag_iff mode sign nonzero e he).symm
  have tiny_iff : tiny ↔ F.freeExp m e + F.carry mode sign m e < F.minExp :=
    (not_congr (F.reachesTop_two_pow_iff mode sign nonzero e _)).trans not_le
  have packed : out = _ := F.roundPack_eq mode sign nonzero e
  rw [overflows, tiny_iff]
  rcases Nat.lt_or_ge (F.roundedMag mode sign m e) F.infPattern with finite | top
  · rw [if_neg (Nat.not_le.mpr finite)] at packed
    obtain ⟨hof, huf, hinvalid, hnx⟩ := inexact_flags (roundTo mode sign m e (F.lastExp m e)).2
      (decide (F.freeExp m e + F.carry mode sign m e < F.minExp))
    rw [decide_eq_true_iff] at huf
    rw [packed]
    have weight : (0 : ℚ) < 2 ^ F.lastExp m e := by positivity
    have rounds : Rounds mode sign (2 ^ F.lastExp m e) x _ := roundTo_rounds mode sign m e (F.lastExp m e)
    have gap {p n : Nat} {i : Int} (hp : F.unpack p = .fin false n i) (k : Nat) (lower : k * 2 ^ F.lastExp m e ≤ x)
        (upper : x < k * 2 ^ F.lastExp m e + 2 ^ F.lastExp m e) :
        finValue false n i ≤ k * 2 ^ F.lastExp m e ∨ k * 2 ^ F.lastExp m e + 2 ^ F.lastExp m e ≤ finValue false n i :=
      FpFmt.finValue_of_unpack hp ▸ F.units_le_or_le nonzero e lower upper _
    obtain ⟨k, j, unpacked, value⟩ := F.unpack_roundedMag mode sign nonzero e finite
    obtain ⟨toward_zero, down, up⟩ := rounds.toward weight
    refine ⟨iff_of_false (not_not.mpr hof) (Nat.not_le.mpr finite), fun h => absurd h (Nat.not_le.mpr finite), huf, hinvalid,
      rfl, rfl, fun _ => ⟨k, j, unpacked, ?_⟩⟩
    rw [value, hnx, ← Bool.not_eq_true, rounds.inexact_iff, not_not]
    refine ⟨Iff.rfl, fun p n i hp => rounds.not_between weight (gap hp), toward_zero, down, up,
      fun near p n i hp => rounds.nearest weight (gap hp) near, fun p n i hp other equal => ?_⟩
    rw [F.withSign_roundedMag_mod_two hf]
    exact rounds.tie weight (gap hp) other equal
  · have large := (F.infPattern_le_roundedMag_iff mode sign nonzero e he).mp top
    have minExp : F.minExp = 1 - F.bias - F.fbits := rfl
    rw [if_pos top, overflowPattern_eq_ite] at packed
    rw [packed]
    obtain ⟨hof, huf, hinvalid⟩ := overflow_flags
    exact ⟨iff_of_true hof top, fun _ => ⟨rfl, rfl⟩, iff_of_false huf fun h => absurd h.1 (by omega), hinvalid, rfl, rfl,
      fun h => absurd h hof⟩

end Sys2Proof.Machine
end

section
/-! PROOFS. Arithmetic on finite values and conversions to a format (spec/45_fp_single.md R569, R573, R576, R583 to R589;
spec/46_fp_double.md R667, R668): the exact result is rounded once. -/
namespace Sys2Proof.Machine

/-! ## Signed values -/

theorem finValue_not (t : Bool) (m : Nat) (e : Int) : finValue (!t) m e = -finValue t m e := by
  cases t <;> simp [finValue]

theorem finValue_bne_mul (t u : Bool) (m n : Nat) (d e : Int) :
    finValue (t != u) (m * n) (d + e) = finValue t m d * finValue u n e := by
  cases t <;> cases u <;> simp [finValue, zpow_add₀] <;> ring

theorem abs_finValue (t : Bool) (m : Nat) (e : Int) : |finValue t m e| = finValue false m e := by
  rw [finValue_eq_ite]
  cases t
  · exact abs_of_nonneg (finValue_false_nonneg m e)
  · exact (abs_neg _).trans (abs_of_nonneg (finValue_false_nonneg m e))

theorem finValue_eq_zero_iff (t : Bool) (m : Nat) (e : Int) : finValue t m e = 0 ↔ m = 0 := by
  rw [← abs_eq_zero, abs_finValue, finValue_false, mul_eq_zero, Nat.cast_eq_zero]
  exact or_iff_left (by positivity)

theorem finValue_neg_iff (t : Bool) {m : Nat} (nonzero : m ≠ 0) (e : Int) : finValue t m e < 0 ↔ t = true := by
  have pos : 0 < finValue false m e := by
    rw [finValue_false]
    positivity
  rw [finValue_eq_ite]
  cases t <;> simp [pos, pos.le]

theorem signedMantissa_mul_zpow (t : Bool) (m : Nat) {E e : Int} (h : E ≤ e) :
    (signedMantissa t m (e - E).toNat : ℚ) * 2 ^ E = finValue t m e := by
  have weight : (2 : ℚ) ^ e = 2 ^ (e - E).toNat * 2 ^ E := by
    rw [← zpow_natCast, ← zpow_add₀ two_ne_zero]
    congr 1
    omega
  cases t <;> simp [signedMantissa, finValue, weight] <;> ring

/-! ## Exact results -/

/-- The result r is the exact rational q, if it is not 0, rounded once. -/
def RoundsOnce (F : FpFmt) (mode : RoundingMode) (q : ℚ) (r : Nat × FFlags) : Prop :=
  q ≠ 0 → ∃ n i, |q| = finValue false n i ∧ r = roundPack F mode (decide (q < 0)) n i

section
variable (F : FpFmt) (mode : RoundingMode) (t u v : Bool) (j k l : Nat) (d e f : Int)

theorem roundPack_roundsOnce : RoundsOnce F mode (finValue t j d) (roundPack F mode t j d) := by
  intro nonzero
  refine ⟨j, d, abs_finValue t j d, ?_⟩
  congr 1
  rw [Bool.eq_iff_iff, decide_eq_true_iff, finValue_neg_iff t (mt (finValue_eq_zero_iff t j d).mpr nonzero)]

/-- The sum as an integer multiple of the smaller of the two weights. -/
theorem addFinite_cases :
    RoundsOnce F mode (finValue t j d + finValue u k e) (addFinite F mode t j d u k e) ∧
    (finValue t j d + finValue u k e = 0 →
      addFinite F mode t j d u k e = (F.withSign (if t = u then t else decide (mode = .rdn)) 0, FFlags.none)) := by
  have value : ((signedMantissa t j (d - min d e).toNat + signedMantissa u k (e - min d e).toNat : Int) : ℚ) * 2 ^ min d e =
      finValue t j d + finValue u k e := by
    rw [Int.cast_add, add_mul, signedMantissa_mul_zpow t j (min_le_left d e), signedMantissa_mul_zpow u k (min_le_right d e)]
  have weight : (0 : ℚ) < 2 ^ min d e := by positivity
  unfold addFinite
  dsimp only
  generalize signedMantissa t j (d - min d e).toNat + signedMantissa u k (e - min d e).toNat = sum at value ⊢
  rw [← value]
  constructor
  · intro nonzero
    have sum_ne_zero : sum ≠ 0 := by
      rintro rfl
      simp at nonzero
    refine ⟨sum.natAbs, min d e, ?_, ?_⟩
    · rw [abs_mul, abs_of_pos weight, finValue_false, Nat.cast_natAbs, Int.cast_abs]
    · rw [if_neg sum_ne_zero]
      congr 1
      simp [mul_neg_iff, weight, weight.le]
  · intro zero
    have sum_zero : sum = 0 := by simpa [weight.ne'] using zero
    rw [if_pos sum_zero, roundPack, if_pos rfl, beq_eq_decide mode]
    simp only [beq_iff_eq]

theorem fpMulVal_roundsOnce :
    RoundsOnce F mode (finValue t j d * finValue u k e) (fpMulVal F mode (.fin t j d) (.fin u k e)) := by
  rw [← finValue_bne_mul]
  exact roundPack_roundsOnce F mode _ _ _

theorem fpMulVal_zero (zero : finValue t j d * finValue u k e = 0) :
    fpMulVal F mode (.fin t j d) (.fin u k e) = (F.withSign (t != u) 0, FFlags.none) := by
  rw [← finValue_bne_mul, finValue_eq_zero_iff] at zero
  exact if_pos zero

theorem neg_if (c : Bool) : (if c then (FpVal.fin t j d).neg else .fin t j d) = .fin (c != t) j d := by
  cases c <;> simp [FpVal.neg]

theorem finValue_bne (c : Bool) : finValue (c != t) j d = if c then -finValue t j d else finValue t j d := by
  cases c
  · simp
  · simp [← finValue_not]

theorem fpFmaVal_fin (np na : Bool) :
    fpFmaVal F mode (if np then (FpVal.fin t j d).neg else .fin t j d) (.fin u k e)
        (if na then (FpVal.fin v l f).neg else .fin v l f) =
      addFinite F mode (np != (t != u)) (j * k) (d + e) (na != v) l f := by
  rw [neg_if, neg_if, ← Bool.bne_assoc]
  rfl

theorem fpFmaVal_cases (np na : Bool) :
    let q := (if np then -(finValue t j d * finValue u k e) else finValue t j d * finValue u k e) +
      (if na then -finValue v l f else finValue v l f)
    let r := fpFmaVal F mode (if np then (FpVal.fin t j d).neg else .fin t j d) (.fin u k e)
      (if na then (FpVal.fin v l f).neg else .fin v l f)
    let pos := np != (t != u)
    RoundsOnce F mode q r ∧
      (q = 0 → r = (F.withSign (if pos = (na != v) then pos else decide (mode = .rdn)) 0, FFlags.none)) := by
  intro q r pos
  have value : q = finValue pos (j * k) (d + e) + finValue (na != v) l f := by
    rw [finValue_bne (t != u), finValue_bne v, finValue_bne_mul]
  have fused : r = addFinite F mode pos (j * k) (d + e) (na != v) l f := fpFmaVal_fin ..
  rw [value, fused]
  exact addFinite_cases F mode pos (na != v) (j * k) l (d + e) f

end

/-! ## Conversions between the formats (R573, R667, R668) -/

theorem fpConvert_of_nan {src dst : FpFmt} {p : Nat} {b : Bool} (h : src.unpack p = .nan b) (mode : RoundingMode) :
    fpConvert src dst mode p = nanResult dst b := by
  rw [fpConvert, h]

theorem fpConvert_of_inf {src dst : FpFmt} {p : Nat} {t : Bool} (h : src.unpack p = .inf t) (mode : RoundingMode) :
    fpConvert src dst mode p = infResult dst t := by
  rw [fpConvert, h]

theorem fpConvert_of_fin {src dst : FpFmt} {p : Nat} {t : Bool} {k : Nat} {e : Int} (h : src.unpack p = .fin t k e)
    (mode : RoundingMode) : fpConvert src dst mode p = roundPack dst mode t k e := by
  rw [fpConvert, h]

/-- Every finite value lies below 2^(bias + 1). -/
theorem FpFmt.freeExp_lt_of_unpack {F : FpFmt} {p m : Nat} {t : Bool} {e : Int} (he : 1 ≤ F.ebits)
    (h : F.unpack p = .fin t m e) (nonzero : m ≠ 0) : F.freeExp m e < F.bias + 1 - F.fbits := by
  obtain ⟨finite, -, -, k, rfl, units⟩ := magOf_of_unpack_fin h
  have top : F.units F.infPattern = 2 ^ (F.fbits + 2 * F.bias) := by
    rw [F.infPattern_eq he, Nat.succ_mul, F.units_mantissa (.inr le_rfl) (Nat.pow_le_pow_right two_pos F.fbits.le_succ),
      Nat.pow_add]
  have below := F.units_strictMono finite
  rw [units, top] at below
  have exponents : m.log2 + k < F.fbits + 2 * F.bias := by
    rw [← Nat.pow_lt_pow_iff_right Nat.one_lt_two, Nat.pow_add]
    exact (Nat.mul_le_mul_right _ (Nat.log2_self_le nonzero)).trans_lt below
  rw [freeExp, minExp]
  omega

/-- A value whose bits all lie at or above the last one kept, and below the overflow, is kept. -/
theorem roundPack_exact (F : FpFmt) (mode : RoundingMode) (t : Bool) (k : Nat) (e : Int) (he : 2 ≤ F.ebits)
    (kept : k ≠ 0 → F.lastExp k e ≤ e) (small : k ≠ 0 → F.freeExp k e + 1 < F.bias + 1 - F.fbits) :
    let r := roundPack F mode t k e
    r.1 < 2 * F.signWeight ∧ r.2 = FFlags.none ∧ ∃ n i, F.unpack r.1 = .fin t n i ∧ finValue t n i = finValue t k e := by
  intro r
  by_cases zero : k = 0
  · have weight := F.signWeight_pos
    have finite : F.magOf (F.withSign t 0) < F.infPattern := by
      rw [F.magOf_withSign t weight, F.infPattern_eq (by omega)]
      positivity
    obtain ⟨n, i, unpacked⟩ := FpFmt.unpack_of_finite finite
    have packed : r = (F.withSign t 0, FFlags.none) := if_pos zero
    have n_zero := (FpFmt.magOf_eq_zero_of_unpack unpacked).mp (F.magOf_withSign t weight)
    rw [F.signOf_withSign t weight] at unpacked
    rw [packed]
    exact ⟨F.withSign_lt t weight, rfl, n, i, unpacked, by simp [finValue, zero, n_zero]⟩
  have finite : F.roundedMag mode t k e < F.infPattern := by
    rw [← Nat.not_le, F.infPattern_le_roundedMag_iff mode t zero e he]
    have := F.carry_le_one mode t (m := k) e
    have := small zero
    omega
  have exact : (roundTo mode t k e (F.lastExp k e)).2 = false := by
    rw [roundTo, if_pos (kept zero)]
  have packed : r = (F.withSign t (F.roundedMag mode t k e), FFlags.none) := by
    rw [show r = _ from F.roundPack_eq mode t zero e, if_neg (Nat.not_le.mpr finite), exact, Bool.false_and]
    rfl
  obtain ⟨n, i, unpacked, value⟩ := F.unpack_roundedMag mode t zero e finite
  rw [packed]
  refine ⟨F.withSign_lt t (finite.trans F.infPattern_lt_signWeight), rfl, n, i, unpacked, ?_⟩
  have kept_value := (roundTo_rounds mode t k e (F.lastExp k e)).inexact_iff
  rw [exact] at kept_value
  rw [finValue_eq_ite, finValue_eq_ite t k e, value, not_ne_iff.mp (mt kept_value.mpr Bool.false_ne_true)]

/-- Every single is a double (R668). -/
theorem fpConvert_single_double {p : Nat} {t : Bool} {k : Nat} {e : Int} (h : FpFmt.single.unpack p = .fin t k e)
    (mode : RoundingMode) : let r := fpConvert .single .double mode p
    r.1 < 2 ^ 64 ∧ r.2 = FFlags.none ∧ ∃ n i, FpFmt.double.unpack r.1 = .fin t n i ∧ finValue t n i = finValue t k e := by
  obtain ⟨-, -, bound, j, rfl, -⟩ := FpFmt.magOf_of_unpack_fin h
  rw [fpConvert_of_fin h]
  refine roundPack_exact .double mode t k _ (by decide) (fun nonzero => ?_) fun nonzero => ?_
  · have bits : k.log2 < 24 := (Nat.log2_lt nonzero).mpr bound
    refine max_le ?_ ?_
    · rw [FpFmt.freeExp, show FpFmt.double.fbits = 52 from rfl]
      omega
    · have : FpFmt.double.minExp ≤ FpFmt.single.minExp := by decide
      omega
  · have := FpFmt.freeExp_lt_of_unpack (by decide) h nonzero
    simp only [FpFmt.freeExp, show FpFmt.single.bias = 127 from rfl, show FpFmt.double.bias = 1023 from rfl,
      show FpFmt.single.fbits = 23 from rfl, show FpFmt.double.fbits = 52 from rfl] at this ⊢
    omega

/-! ## The obligation -/

/-- Finite operands of one format, whose results become words by `bits`. -/
theorem arithmetic_roundsOnce {w : Nat} (F : FpFmt) (bits : Nat × FFlags → BitVec w × FFlags)
    (bits_zero : ∀ s, bits (F.withSign s 0, FFlags.none) = (if s then BitVec.intMin w else 0, 0#5)) {A B C : FpVal}
    {t u v : Bool} {j k l : Nat} {d e f : Int} (hA : A = .fin t j d) (hB : B = .fin u k e) (hC : C = .fin v l f)
    (m : RoundingMode) :
    let x := finValue t j d; let y := finValue u k e; let z := finValue v l f
    let rounds (q : ℚ) (r : BitVec w × FFlags) : Prop := q ≠ 0 →
      ∃ n i, |q| = finValue false n i ∧ r = bits (roundPack F m (decide (q < 0)) n i)
    let zero (s : Bool) : BitVec w × FFlags := (if s then BitVec.intMin w else 0, 0#5)
    let sum := bits (fpAddVal F m A B); let difference := bits (fpAddVal F m A B.neg); let product := bits (fpMulVal F m A B)
    let fused (np na : Bool) := bits (fpFmaVal F m (if np then A.neg else A) B (if na then C.neg else C))
    rounds (x + y) sum ∧ rounds (x - y) difference ∧ rounds (x * y) product ∧
    (∀ np na : Bool, rounds ((if np then -(x * y) else x * y) + (if na then -z else z)) (fused np na)) ∧
    ((x + y = 0 → t ≠ u → sum = zero (m = .rdn)) ∧ (x - y = 0 → t = u → difference = zero (m = .rdn)) ∧
      (x * y = 0 → product = zero (t != u)) ∧
      (∀ np na : Bool, (if np then -(x * y) else x * y) + (if na then -z else z) = 0 →
        let pos := np != (t != u); fused np na = zero (if pos = (na != v) then pos else m = .rdn))) ∧
    (∀ n : Int, n ≠ 0 → bits (fpOfInt F m n) = bits (roundPack F m (decide (n < 0)) n.natAbs 0)) ∧
    bits (fpOfInt F m 0) = (0, 0#5) := by
  intro x y z rounds zero sum difference product fused
  subst hA hB hC
  have once {q : ℚ} {r : Nat × FFlags} (h : RoundsOnce F m q r) : rounds q (bits r) := fun nonzero => by
    obtain ⟨n, i, value, rfl⟩ := h nonzero
    exact ⟨n, i, value, rfl⟩
  have zeros {r : Nat × FFlags} {s : Bool} (h : r = (F.withSign s 0, FFlags.none)) : bits r = zero s :=
    (congrArg bits h).trans (bits_zero s)
  obtain ⟨add, add_zero⟩ := addFinite_cases F m t u j k d e
  obtain ⟨sub, sub_zero⟩ := addFinite_cases F m t (!u) j k d e
  rw [finValue_not, ← sub_eq_add_neg] at sub sub_zero
  refine ⟨once add, once sub, once (fpMulVal_roundsOnce F m t u j k d e), fun np na => once (fpFmaVal_cases ..).1,
    ⟨fun h signs => zeros ((add_zero h).trans (by rw [if_neg signs])),
      fun h signs => zeros ((sub_zero h).trans (by rw [if_neg (by simp [signs])])),
      fun h => zeros (fpMulVal_zero F m t u j k d e h), fun np na h => zeros ((fpFmaVal_cases ..).2 h)⟩,
    fun _ _ => rfl, bits_zero false⟩

/-- Settles O35: each operation is one rounding of an integer multiple of a power of two. -/
theorem arithmeticRoundsTheExactResultOnce : Obligations.ArithmeticRoundsTheExactResultOnce := by
  refine ⟨fun m a b c t u v j k l d e f ha hb hc => ?_, fun m a b c t u v j k l d e f ha hb hc => ?_, fun m a => ?_, fun m a => ?_⟩
  · exact arithmetic_roundsOnce .single bitsS (by decide) ha hb hc m
  · exact arithmetic_roundsOnce .double bitsD (by decide) ha hb hc m
  · have nan : ∀ b, bitsS (nanResult .single b) = (0x7FC00000#32, if b then 0b10000#5 else 0#5) := by decide
    have inf : ∀ t, bitsS (infResult .single t) = (if t then 0xFF800000#32 else 0x7F800000#32, 0#5) := by decide
    have zero : ∀ t, bitsS (FpFmt.single.withSign t 0, FFlags.none) = (if t then 0x80000000#32 else 0#32, 0#5) := by decide
    exact ⟨fun b h => (congrArg bitsS (fpConvert_of_nan h m)).trans (nan b),
      fun t h => (congrArg bitsS (fpConvert_of_inf h m)).trans (inf t),
      fun t e h => (congrArg bitsS (fpConvert_of_fin h m)).trans (zero t),
      fun t k e h _ => congrArg bitsS (fpConvert_of_fin h m)⟩
  · have nan : ∀ b, bitsD (nanResult .double b) = (0x7FF8000000000000#64, if b then 0b10000#5 else 0#5) := by decide
    have inf : ∀ t, bitsD (infResult .double t) =
        (if t then 0xFFF0000000000000#64 else 0x7FF0000000000000#64, 0#5) := by decide
    refine ⟨fun b h => (congrArg bitsD (fpConvert_of_nan h m)).trans (nan b),
      fun t h => (congrArg bitsD (fpConvert_of_inf h m)).trans (inf t), fun t k e h => ?_⟩
    obtain ⟨fits, flags, n, i, unpacked, value⟩ := fpConvert_single_double h m
    refine ⟨flags, n, i, ?_, value⟩
    rw [← unpacked, valD, singleToDouble, bitsD, BitVec.toNat_ofNat, Nat.mod_eq_of_lt fits]

end Sys2Proof.Machine
end

section
/-! PROOFS. Division and square root (spec/45_fp_single.md R590, R591): the integer quotient and root, and the bit that says
whether they are exact. -/
namespace Sys2Proof.Machine

/-! ## The integer square root -/

/-- Each bit tried keeps the root between acc and acc + 2^i. -/
theorem isqrtFrom_bounds (n i acc : Nat) (lower : acc * acc ≤ n) (upper : n < (acc + 2 ^ i) * (acc + 2 ^ i)) :
    isqrtFrom n i acc * isqrtFrom n i acc ≤ n ∧ n < (isqrtFrom n i acc + 1) * (isqrtFrom n i acc + 1) := by
  induction i generalizing acc with
  | zero => exact ⟨lower, upper⟩
  | succ i ih =>
    rw [isqrtFrom]
    split
    · next fits => exact ih _ fits (by rwa [Nat.add_assoc, ← Nat.two_mul, ← Nat.pow_succ'])
    · next large => exact ih _ lower (Nat.not_le.mp large)

theorem isqrt_bounds (n : Nat) : isqrt n * isqrt n ≤ n ∧ n < (isqrt n + 1) * (isqrt n + 1) := by
  refine isqrtFrom_bounds n _ 0 (Nat.zero_le n) (Nat.lt_log2_self.trans_le ?_)
  rw [Nat.zero_add, ← Nat.pow_add]
  exact Nat.pow_le_pow_right two_pos (by omega)

/-! ## The bit below a cut -/

/-- A cut c is doubled, and the bit below it says whether it is exact: what is rounded is 2c, or lies between 2c and 2c + 2. -/
theorem cut_bit {exact : Prop} [Decidable exact] {c : Nat} {R : Nat → Prop} {S : Nat → Nat → Prop} (h : exact → R (2 * c))
    (h' : ¬exact → S (2 * c) (2 * (c + 1))) :
    let n := 2 * c + if exact then 0 else 1
    if n % 2 = 0 then R n else S (n - 1) (n + 1) := by
  by_cases he : exact
  · simpa [he] using h he
  · simpa [he, Nat.add_mod, Nat.mul_add] using h' he

theorem finValue_two_mul (c : Nat) (i : Int) : finValue false (2 * c) i = c * 2 ^ (i + 1) := by
  rw [finValue_false, zpow_add_one₀ two_ne_zero, Nat.cast_mul]
  ring

theorem quotient_bounds {a b : Nat} (hb : 0 < b) (inexact : a % b ≠ 0) :
    ((a / b : Nat) : ℚ) < a / b ∧ (a / b : ℚ) < (a / b + 1 : Nat) := by
  have pos : (0 : ℚ) < b := by exact_mod_cast hb
  have division := Nat.div_add_mod' a b
  rw [lt_div_iff₀ pos, div_lt_iff₀ pos]
  norm_cast
  exact ⟨by omega, Nat.mul_comm b _ ▸ Nat.lt_mul_div_succ a hb⟩

theorem fpDivVal_fin (F : FpFmt) (mode : RoundingMode) (t u : Bool) {j k : Nat} (d e : Int) (hj : j ≠ 0) (hk : k ≠ 0) :
    ∃ n i, 2 ^ (F.fbits + 4) ≤ n ∧ fpDivVal F mode (.fin t j d) (.fin u k e) = roundPack F mode (t != u) n i ∧
      (let q := finValue false j d / finValue false k e
       if n % 2 = 0 then finValue false n i = q else finValue false (n - 1) i < q ∧ q < finValue false (n + 1) i) := by
  have hk' : 0 < k := Nat.pos_of_ne_zero hk
  refine ⟨_, _, ?_, if_neg hk, ?_⟩
  · have large : 2 ^ (F.fbits + 3) ≤ j * 2 ^ (F.fbits + 4 + k.log2) / k := by
      rw [Nat.le_div_iff_mul_le hk']
      calc 2 ^ (F.fbits + 3) * k ≤ 2 ^ (F.fbits + 3) * 2 ^ (k.log2 + 1) := Nat.mul_le_mul_left _ Nat.lt_log2_self.le
        _ = 2 ^ (F.fbits + 4 + k.log2) := by rw [← Nat.pow_add]; congr 1; omega
        _ ≤ j * 2 ^ (F.fbits + 4 + k.log2) := Nat.le_mul_of_pos_left _ (Nat.pos_of_ne_zero hj)
    exact Nat.pow_succ'.trans_le ((Nat.mul_le_mul_left 2 large).trans (Nat.le_add_right _ _))
  · have value : finValue false j d / finValue false k e =
        ((j * 2 ^ (F.fbits + 4 + k.log2) : Nat) / (k : ℚ)) * 2 ^ (d - e - (F.fbits + 4 + k.log2 : Nat) - 1 + 1) := by
      rw [finValue_false, finValue_false, sub_add_cancel, zpow_sub₀ two_ne_zero, zpow_sub₀ two_ne_zero, zpow_natCast]
      push_cast
      field_simp
    rw [value]
    refine cut_bit (R := fun n => finValue false n _ = _)
      (S := fun n n' => finValue false n _ < _ ∧ _ < finValue false n' _) ?_ ?_
    · intro exact
      rw [finValue_two_mul, Nat.cast_div (Nat.dvd_of_mod_eq_zero exact) (by exact_mod_cast hk)]
    · intro inexact
      obtain ⟨lower, upper⟩ := quotient_bounds hk' inexact
      rw [finValue_two_mul, finValue_two_mul]
      exact ⟨by gcongr, by gcongr⟩

theorem fpSqrtVal_fin (F : FpFmt) (mode : RoundingMode) {j : Nat} (d : Int) (hj : j ≠ 0) :
    ∃ n i, 2 ^ (F.fbits + 3) ≤ n ∧ fpSqrtVal F mode (.fin false j d) = roundPack F mode false n i ∧
      (let q := finValue false j d
       if n % 2 = 0 then finValue false n i ^ 2 = q
       else finValue false (n - 1) i ^ 2 < q ∧ q < finValue false (n + 1) i ^ 2) := by
  refine ⟨_, _, ?_, (if_neg hj).trans (if_neg Bool.false_ne_true), ?_⟩
  · have scaled : 2 ^ (F.fbits + 3) * 2 ^ (F.fbits + 3) ≤ j * 2 ^ (2 * F.fbits + 6 + (d % 2).toNat) := by
      rw [← Nat.pow_add]
      exact (Nat.pow_le_pow_right two_pos (by omega)).trans (Nat.le_mul_of_pos_left _ (Nat.pos_of_ne_zero hj))
    have large := Nat.mul_self_lt_mul_self_iff.mp (scaled.trans_lt (isqrt_bounds _).2)
    omega
  · have value : finValue false j d =
        (j * 2 ^ (2 * F.fbits + 6 + (d % 2).toNat) : Nat) *
          ((2 : ℚ) ^ ((d - (2 * F.fbits + 6 + (d % 2).toNat : Nat)) / 2 - 1 + 1)) ^ 2 := by
      rw [finValue_false, Nat.cast_mul, Nat.cast_pow, Nat.cast_ofNat, mul_assoc, ← zpow_natCast, ← zpow_natCast, ← zpow_mul,
        ← zpow_add₀ two_ne_zero]
      congr 2
      push_cast
      omega
    obtain ⟨lower, upper⟩ := isqrt_bounds (j * 2 ^ (2 * F.fbits + 6 + (d % 2).toNat))
    rw [value]
    refine cut_bit (R := fun n => finValue false n _ ^ 2 = _)
      (S := fun n n' => finValue false n _ ^ 2 < _ ∧ _ < finValue false n' _ ^ 2) ?_ ?_
    · intro exact
      rw [finValue_two_mul, mul_pow, sq (isqrt _ : ℚ), ← Nat.cast_mul, exact]
    · intro inexact
      rw [finValue_two_mul, finValue_two_mul, mul_pow, mul_pow, sq (isqrt _ : ℚ), sq ((isqrt _ + 1 : Nat) : ℚ), ← Nat.cast_mul,
        ← Nat.cast_mul]
      have lower := lower.lt_of_ne inexact
      exact ⟨by gcongr, by gcongr⟩

/-- Settles O36: the cut keeps enough bits, and its last one keeps the value off the even neighbours. -/
theorem quotientAndRootAreCutBelowRounding : Obligations.QuotientAndRootAreCutBelowRounding := by
  constructor
  · intro m a b t u j k d e ha hb hj
    constructor
    · intro hk
      obtain ⟨n, i, large, h, cut⟩ := fpDivVal_fin .single m t u d e hj hk
      exact ⟨n, i, large, by rw [divS, ha, hb, h], cut⟩
    · rintro rfl
      obtain ⟨n, i, large, h, cut⟩ := fpSqrtVal_fin .single m d hj
      exact ⟨n, i, large, by rw [sqrtS, ha, h], cut⟩
  · intro m a b t u j k d e ha hb hj
    constructor
    · intro hk
      obtain ⟨n, i, large, h, cut⟩ := fpDivVal_fin .double m t u d e hj hk
      exact ⟨n, i, large, by rw [divD, ha, hb, h], cut⟩
    · rintro rfl
      obtain ⟨n, i, large, h, cut⟩ := fpSqrtVal_fin .double m d hj
      exact ⟨n, i, large, by rw [sqrtD, ha, h], cut⟩

end Sys2Proof.Machine
end

section
/-! PROOFS. Special operands (spec/45_fp_single.md R562, R567 to R569): NaNs, infinities and zeros, first as values, then as
words. -/
namespace Sys2Proof.Machine

/-! ## Kinds of values -/

namespace FpVal

/-- The value is a zero. -/
def IsZero (v : FpVal) : Prop := ∃ t e, v = .fin t 0 e
/-- The value is finite and no zero. -/
def IsNonzero (v : FpVal) : Prop := ∃ t k e, v = .fin t k e ∧ k ≠ 0
/-- The value is finite. -/
def IsFinite (v : FpVal) : Prop := ∃ t k e, v = .fin t k e

/-- The sign of a value that is no NaN. -/
def signBit : FpVal → Bool
  | .nan _ => false
  | .inf t => t
  | .fin t _ _ => t

/-- The value with its sign changed if c holds. -/
def negIf (c : Bool) (v : FpVal) : FpVal := if c then v.neg else v

@[simp] theorem isNaN_neg (v : FpVal) : v.neg.isNaN = v.isNaN := by cases v <;> rfl
@[simp] theorem isSignaling_neg (v : FpVal) : v.neg.isSignaling = v.isSignaling := by cases v <;> rfl
@[simp] theorem isNaN_negIf (c : Bool) (v : FpVal) : (v.negIf c).isNaN = v.isNaN := by cases c <;> simp [negIf]
@[simp] theorem isSignaling_negIf (c : Bool) (v : FpVal) : (v.negIf c).isSignaling = v.isSignaling := by
  cases c <;> simp [negIf]
@[simp] theorem negIf_inf (c t : Bool) : negIf c (.inf t) = .inf (c != t) := by cases c <;> simp [negIf, neg]
@[simp] theorem negIf_fin (c t : Bool) (k : Nat) (e : Int) : negIf c (.fin t k e) = .fin (c != t) k e := by
  cases c <;> simp [negIf, neg]

/-- x · y is 0 · ∞. -/
def IsZeroTimesInf (x y : FpVal) : Prop := ∃ t, (x = .inf t ∧ y.IsZero) ∨ (x.IsZero ∧ y = .inf t)

/-- x · y is an infinity. -/
def HasInfProduct (x y : FpVal) : Prop := ∃ t u, (x = .inf t ∧ (y = .inf u ∨ y.IsNonzero)) ∨ (x.IsNonzero ∧ y = .inf u)

variable {x y z : FpVal}

theorem zeroTimesInf_iff : zeroTimesInf x y = true ↔ IsZeroTimesInf x y := by
  cases x <;> cases y <;> simp [zeroTimesInf, IsZeroTimesInf, IsZero]

theorem IsZero.isFinite (h : x.IsZero) : x.IsFinite := h.elim fun t ⟨e, h⟩ => ⟨t, 0, e, h⟩
theorem IsNonzero.isFinite (h : x.IsNonzero) : x.IsFinite := h.elim fun t ⟨k, e, h, _⟩ => ⟨t, k, e, h⟩

theorem IsFinite.isNaN (h : x.IsFinite) : x.isNaN = false := by
  obtain ⟨t, k, e, rfl⟩ := h
  rfl

theorem isNaN_of_inf {t : Bool} (h : x = .inf t) : x.isNaN = false := by
  subst h
  rfl

theorem IsFinite.negIf (c : Bool) (h : x.IsFinite) : (x.negIf c).IsFinite := by
  obtain ⟨t, k, e, rfl⟩ := h
  exact ⟨_, k, e, negIf_fin c t k e⟩

theorem IsFinite.neg (h : x.IsFinite) : x.neg.IsFinite := h.negIf true

theorem IsZero.neg (h : x.IsZero) : x.neg.IsZero := by
  obtain ⟨t, e, rfl⟩ := h
  exact ⟨!t, e, rfl⟩

theorem neg_of_inf {t : Bool} (h : x = .inf t) : x.neg = .inf (!t) := by
  rw [h]
  rfl

theorem signBit_neg (h : x.isNaN = false) : x.neg.signBit = !x.signBit := by
  cases x with
  | nan => cases h
  | inf | fin => rfl

theorem negIf_of_inf {t : Bool} (c : Bool) (h : x = .inf t) : x.negIf c = .inf (c != t) := by
  rw [h, negIf_inf]

theorem signBit_negIf (c : Bool) (h : x.isNaN = false) : (x.negIf c).signBit = (c != x.signBit) := by
  cases x with
  | nan => cases h
  | inf t => rw [negIf_inf]; rfl
  | fin t k e => rw [negIf_fin]; rfl

theorem isZeroTimesInf_negIf (c : Bool) : IsZeroTimesInf (x.negIf c) y ↔ IsZeroTimesInf x y := by
  rw [← zeroTimesInf_iff, ← zeroTimesInf_iff]
  cases x with
  | nan => cases c <;> rfl
  | inf t => rw [negIf_inf]; cases y <;> rfl
  | fin t k e => rw [negIf_fin]; cases y <;> rfl

theorem HasInfProduct.negIf (c : Bool) (h : HasInfProduct x y) : HasInfProduct (x.negIf c) y := by
  obtain ⟨t, u, ⟨rfl, hy⟩ | ⟨⟨s, k, e, rfl, nonzero⟩, hy⟩⟩ := h
  · exact ⟨c != t, u, .inl ⟨negIf_inf c t, hy⟩⟩
  · exact ⟨t, u, .inr ⟨⟨c != s, k, e, negIf_fin c s k e, nonzero⟩, hy⟩⟩

theorem HasInfProduct.isNaN (h : HasInfProduct x y) : x.isNaN = false ∧ y.isNaN = false := by
  obtain ⟨t, u, ⟨rfl, rfl | hy⟩ | ⟨hx, rfl⟩⟩ := h
  · exact ⟨rfl, rfl⟩
  · exact ⟨rfl, hy.isFinite.isNaN⟩
  · exact ⟨hx.isFinite.isNaN, rfl⟩

theorem hasInfProduct_of_inf {t : Bool} (inf : x = .inf t ∨ y = .inf t) (hx : x.isNaN = false) (hy : y.isNaN = false)
    (h : ¬IsZeroTimesInf x y) : HasInfProduct x y := by
  cases x with
  | nan => cases hx
  | inf s =>
    cases y with
    | nan => cases hy
    | inf u => exact ⟨s, u, .inl ⟨rfl, .inl rfl⟩⟩
    | fin u k e =>
      have nonzero : k ≠ 0 := by
        rintro rfl
        exact h ⟨s, .inl ⟨rfl, u, e, rfl⟩⟩
      exact ⟨s, t, .inl ⟨rfl, .inr ⟨u, k, e, rfl, nonzero⟩⟩⟩
  | fin s k e =>
    obtain rfl : y = .inf t := inf.resolve_left nofun
    have nonzero : k ≠ 0 := by
      rintro rfl
      exact h ⟨t, .inr ⟨⟨s, e, rfl⟩, rfl⟩⟩
    exact ⟨t, t, .inr ⟨⟨s, k, e, rfl, nonzero⟩, rfl⟩⟩

end FpVal

open FpVal

/-! ## Operations on special values -/

section
variable (F : FpFmt) (m : RoundingMode) {x y z : FpVal}

theorem fpAddVal_nan (h : (x.isNaN || y.isNaN) = true) : fpAddVal F m x y = nanResult F (x.isSignaling || y.isSignaling) := by
  cases x <;> cases y <;> simp_all [fpAddVal, isNaN, isSignaling]

theorem fpMulVal_nan (h : (x.isNaN || y.isNaN) = true) : fpMulVal F m x y = nanResult F (x.isSignaling || y.isSignaling) := by
  cases x <;> cases y <;> simp_all [fpMulVal, isNaN, isSignaling]

theorem fpDivVal_nan (h : (x.isNaN || y.isNaN) = true) : fpDivVal F m x y = nanResult F (x.isSignaling || y.isSignaling) := by
  cases x <;> cases y <;> simp_all [fpDivVal, isNaN, isSignaling]

theorem fpMulVal_zero_inf (h : IsZeroTimesInf x y) : fpMulVal F m x y = nanResult F true := by
  obtain ⟨t, ⟨rfl, u, e, rfl⟩ | ⟨⟨u, e, rfl⟩, rfl⟩⟩ := h <;> rfl

theorem fpFmaVal_zero_inf (h : IsZeroTimesInf x y) : fpFmaVal F m x y z = nanResult F true := by
  obtain ⟨t, ⟨rfl, u, e, rfl⟩ | ⟨⟨u, e, rfl⟩, rfl⟩⟩ := h <;> cases z <;> simp [fpFmaVal, isNaN, isSignaling, zeroTimesInf]

theorem fpFmaVal_nan (h : (x.isNaN || y.isNaN || z.isNaN) = true) (hzero : ¬IsZeroTimesInf x y) :
    fpFmaVal F m x y z = nanResult F (x.isSignaling || y.isSignaling || z.isSignaling) := by
  rw [← zeroTimesInf_iff, Bool.not_eq_true] at hzero
  exact (if_pos h).trans (by rw [hzero, Bool.or_false])

theorem fpMulVal_inf (h : HasInfProduct x y) : fpMulVal F m x y = infResult F (x.signBit != y.signBit) := by
  obtain ⟨t, u, ⟨rfl, rfl | ⟨s, k, e, rfl, nonzero⟩⟩ | ⟨⟨s, k, e, rfl, nonzero⟩, rfl⟩⟩ := h
  · rfl
  · exact if_neg nonzero
  · exact if_neg nonzero

theorem fpFmaVal_inf (h : HasInfProduct x y) (hz : z.isNaN = false) :
    fpFmaVal F m x y z = fpAddVal F m (.inf (x.signBit != y.signBit)) z := by
  obtain ⟨t, u, ⟨rfl, rfl | ⟨s, k, e, rfl, nonzero⟩⟩ | ⟨⟨s, k, e, rfl, nonzero⟩, rfl⟩⟩ := h
  all_goals refine (if_neg (by rw [hz]; exact Bool.false_ne_true)).trans ?_
  · rfl
  · exact if_neg nonzero
  · exact if_neg nonzero

theorem fpAddVal_inf {t : Bool} (hx : x = .inf t) (hy : y.IsFinite ∨ y = .inf t) : fpAddVal F m x y = infResult F t := by
  subst hx
  obtain ⟨s, k, e, rfl⟩ | rfl := hy
  · rfl
  · simp [fpAddVal]

theorem fpAddVal_finite_inf {t : Bool} (hx : x.IsFinite) (hy : y = .inf t) : fpAddVal F m x y = infResult F t := by
  obtain ⟨s, k, e, rfl⟩ := hx
  subst hy
  rfl

theorem fpAddVal_inf_opposite {t u : Bool} (hx : x = .inf t) (hy : y = .inf u) (h : t ≠ u) :
    fpAddVal F m x y = nanResult F true := by
  subst hx hy
  simp [fpAddVal, h]

theorem fpFmaVal_finite_inf {t : Bool} (hx : x.IsFinite) (hy : y.IsFinite) (hz : z = .inf t) :
    fpFmaVal F m x y z = infResult F t := by
  obtain ⟨s, k, e, rfl⟩ := hx
  obtain ⟨s', k', e', rfl⟩ := hy
  subst hz
  rfl

theorem fpDivVal_inf_inf {t u : Bool} (hx : x = .inf t) (hy : y = .inf u) : fpDivVal F m x y = nanResult F true := by
  subst hx hy
  rfl

theorem fpDivVal_zero_zero (hx : x.IsZero) (hy : y.IsZero) : fpDivVal F m x y = nanResult F true := by
  obtain ⟨t, d, rfl⟩ := hx
  obtain ⟨u, e, rfl⟩ := hy
  rfl

theorem fpDivVal_nonzero_zero (hx : x.IsNonzero) (hy : y.IsZero) :
    fpDivVal F m x y = (F.withSign (x.signBit != y.signBit) F.infPattern, FFlags.dz) := by
  obtain ⟨t, k, d, rfl, nonzero⟩ := hx
  obtain ⟨u, e, rfl⟩ := hy
  exact if_neg nonzero

theorem fpDivVal_inf_finite {t : Bool} (hx : x = .inf t) (hy : y.IsFinite) :
    fpDivVal F m x y = infResult F (x.signBit != y.signBit) := by
  subst hx
  obtain ⟨u, k, e, rfl⟩ := hy
  rfl

theorem fpDivVal_finite_inf {u : Bool} (hx : x.IsFinite) (hy : y = .inf u) :
    fpDivVal F m x y = (F.withSign (x.signBit != y.signBit) 0, FFlags.none) := by
  obtain ⟨t, k, e, rfl⟩ := hx
  subst hy
  rfl

theorem fpDivVal_zero_nonzero (hx : x.IsZero) (hy : y.IsNonzero) :
    fpDivVal F m x y = (F.withSign (x.signBit != y.signBit) 0, FFlags.none) := by
  obtain ⟨t, d, rfl⟩ := hx
  obtain ⟨u, k, e, rfl, nonzero⟩ := hy
  refine (if_neg nonzero).trans (if_pos ?_)
  simp

theorem fpSqrtVal_nan (h : x.isNaN = true) : fpSqrtVal F m x = nanResult F x.isSignaling := by
  cases x with
  | nan => rfl
  | inf | fin => cases h

theorem fpSqrtVal_negative {k : Nat} {e : Int} (hx : x = .fin true k e) (nonzero : k ≠ 0) :
    fpSqrtVal F m x = nanResult F true := by
  subst hx
  exact if_neg nonzero

theorem fpSqrtVal_inf {t : Bool} (hx : x = .inf t) :
    fpSqrtVal F m x = if t then nanResult F true else infResult F false := by
  subst hx
  rfl

theorem fpSqrtVal_zero (hx : x.IsZero) : fpSqrtVal F m x = (F.withSign x.signBit 0, FFlags.none) := by
  obtain ⟨t, e, rfl⟩ := hx
  rfl

theorem fpMulVal_zero_zero (hx : x.IsZero) (hy : y.IsZero) :
    fpMulVal F m x y = (F.withSign (x.signBit != y.signBit) 0, FFlags.none) := by
  obtain ⟨t, d, rfl⟩ := hx
  obtain ⟨u, e, rfl⟩ := hy
  rfl

theorem fpAddVal_zero_zero (hx : x.IsZero) (hy : y.IsZero) (same : x.signBit = y.signBit) :
    fpAddVal F m x y = (F.withSign x.signBit 0, FFlags.none) := by
  obtain ⟨t, d, rfl⟩ := hx
  obtain ⟨u, e, rfl⟩ := hy
  obtain rfl : t = u := same
  exact ((addFinite_cases F m t t 0 0 d e).2 (by simp [finValue])).trans (by rw [if_pos rfl]; rfl)

end

/-! ## Words -/

/-- A format's words: their width, the mask of the sign, the infinity and the canonical NaN. -/
structure FpFmt.Words (F : FpFmt) (w : Nat) (M I N : BitVec w) : Prop where
  width : w = F.ebits + F.fbits + 1
  sign : M = BitVec.intMin w
  inf : I = BitVec.ofNat w F.infPattern
  nan : N = BitVec.ofNat w F.canonicalNaN

theorem FpFmt.single_words : FpFmt.single.Words 32 0x80000000#32 0x7F800000#32 0x7FC00000#32 := by constructor <;> decide

theorem FpFmt.double_words :
    FpFmt.double.Words 64 0x8000000000000000#64 0x7FF0000000000000#64 0x7FF8000000000000#64 := by constructor <;> decide

/-- A result as a word of any width. -/
def toWord (w : Nat) (r : Nat × FFlags) : BitVec w × FFlags := (BitVec.ofNat w r.1, r.2)

theorem FpFmt.unpack_not_sign {F : FpFmt} {p q : Nat} (sign : F.signOf q = !F.signOf p) (mag : F.magOf q = F.magOf p) :
    F.unpack q = (F.unpack p).neg := by
  rw [F.unpack_eq p, F.unpack_eq q, sign, mag]
  split_ifs <;> rfl

theorem FpFmt.signBit_unpack {F : FpFmt} {p : Nat} (h : (F.unpack p).isNaN = false) : (F.unpack p).signBit = F.signOf p := by
  obtain ⟨-, b, hb⟩ | ⟨-, hs⟩ | ⟨-, m, k, hm, -⟩ := F.unpack_cases p
  · rw [hb] at h
    cases h
  · rw [hs]
    rfl
  · rw [hm]
    rfl

namespace FpFmt.Words
variable {F : FpFmt} {w : Nat} {M I N : BitVec w} (W : F.Words w M I N) (a b : BitVec w)
include W

theorem toNat_lt : a.toNat < 2 * F.signWeight := by
  obtain ⟨rfl, -, -, -⟩ := W
  exact Nat.pow_succ' ▸ a.isLt

theorem toNat_sign : M.toNat = F.signWeight := by
  obtain ⟨rfl, rfl, -, -⟩ := W
  rw [BitVec.toNat_intMin, Nat.add_sub_cancel, Nat.mod_eq_of_lt (Nat.pow_lt_pow_right Nat.one_lt_two (Nat.lt_succ_self _))]
  rfl

theorem signOf_toNat : F.signOf a.toNat = a.msb := by
  obtain ⟨rfl, -, -, -⟩ := W
  rw [BitVec.msb_eq_getLsbD_last, BitVec.getLsbD, Nat.testBit_eq_decide_div_mod_eq]
  exact beq_eq_decide _ _

theorem msb_sign : M.msb = true := by
  obtain ⟨rfl, rfl, -, -⟩ := W
  rw [BitVec.msb_intMin, decide_eq_true_iff]
  exact Nat.succ_pos _

theorem and_sign : a &&& M = if a.msb then M else 0#w := by
  obtain ⟨rfl, rfl, -, -⟩ := W
  refine BitVec.eq_of_getLsbD_eq fun i hi => ?_
  rw [BitVec.msb_eq_getLsbD_last, Nat.add_sub_cancel, BitVec.getLsbD_and, apply_ite (BitVec.getLsbD · i),
    BitVec.getLsbD_intMin, BitVec.getLsbD_zero]
  cases top : decide (i + 1 = F.ebits + F.fbits + 1)
  · simp
  · obtain rfl : i = F.ebits + F.fbits := Nat.succ.inj (of_decide_eq_true top)
    simp

/-- The sign of the exclusive or. -/
theorem xor_and_sign : (a ^^^ b) &&& M = if F.signOf a.toNat != F.signOf b.toNat then M else 0#w := by
  rw [W.and_sign, BitVec.msb_xor, W.signOf_toNat, W.signOf_toNat]

theorem sign_and_xor_ne_zero : ((M &&& (a ^^^ b)) != 0) = (F.signOf a.toNat != F.signOf b.toNat) := by
  have nonzero : M ≠ 0#w := by
    intro zero
    have sign := W.msb_sign
    rw [zero, BitVec.msb_zero] at sign
    cases sign
  rw [BitVec.and_comm, W.xor_and_sign]
  cases F.signOf a.toNat != F.signOf b.toNat
  · rfl
  · exact bne_iff_ne.mpr nonzero

/-- Flipping the sign bit negates the value. -/
theorem unpack_xor_sign : F.unpack (a ^^^ M).toNat = (F.unpack a.toNat).neg := by
  apply unpack_not_sign
  · rw [W.signOf_toNat, W.signOf_toNat, BitVec.msb_xor, W.msb_sign, Bool.xor_true]
  · rw [BitVec.toNat_xor, W.toNat_sign, magOf, magOf, signWeight, Nat.xor_mod_two_pow, Nat.mod_self, Nat.xor_zero]

theorem ofNat_withSign (s : Bool) {n : Nat} (h : n < F.signWeight) :
    BitVec.ofNat w (F.withSign s n) = (if s then M else 0#w) ||| BitVec.ofNat w n := by
  have fits : F.withSign s n < 2 ^ w := by
    obtain ⟨rfl, -, -, -⟩ := W
    exact (F.withSign_lt s h).trans_eq Nat.pow_succ'.symm
  have small : n < 2 ^ w := lt_of_le_of_lt (by cases s <;> simp [withSign]) fits
  apply BitVec.eq_of_toNat_eq
  rw [BitVec.toNat_or, BitVec.toNat_ofNat, BitVec.toNat_ofNat, Nat.mod_eq_of_lt fits, Nat.mod_eq_of_lt small]
  cases s
  · simp [withSign]
  · rw [if_pos rfl, W.toNat_sign]
    simpa [withSign, signWeight] using Nat.two_pow_add_eq_or_of_lt h 1

theorem toWord_nan (nv : Bool) : toWord w (nanResult F nv) = (N, if nv then 0b10000#5 else 0#5) := by
  rw [W.nan]
  rfl

theorem toWord_inf (s : Bool) : toWord w (infResult F s) = (if s then M ||| I else I, 0#5) := by
  rw [infResult, toWord, W.ofNat_withSign s F.infPattern_lt_signWeight, W.inf]
  cases s
  · simp [FFlags.none]
  · rfl

variable {a b}

theorem toWord_withSign (mag : Nat) (fl : FFlags) (ha : F.magOf a.toNat = mag) :
    toWord w (F.withSign (F.signOf a.toNat) mag, fl) = (a, fl) := by
  rw [← ha, F.withSign_signOf_magOf (W.toNat_lt a), toWord, BitVec.ofNat_toNat, BitVec.setWidth_eq]

theorem toWord_same_inf {t : Bool} (h : F.unpack a.toNat = .inf t) : toWord w (infResult F t) = (a, 0#5) := by
  obtain ⟨mag, rfl⟩ := magOf_of_unpack_inf h
  exact W.toWord_withSign F.infPattern FFlags.none mag

theorem toWord_same_zero (h : (F.unpack a.toNat).IsZero) :
    toWord w (F.withSign (F.unpack a.toNat).signBit 0, FFlags.none) = (a, 0#5) := by
  rw [signBit_unpack h.isFinite.isNaN]
  obtain ⟨t, e, h⟩ := h
  exact W.toWord_withSign 0 FFlags.none ((magOf_eq_zero_of_unpack h).mpr rfl)

theorem toWord_withSign_xor {n : Nat} (hn : n < F.signWeight) (fl : FFlags) (ha : (F.unpack a.toNat).isNaN = false)
    (hb : (F.unpack b.toNat).isNaN = false) :
    toWord w (F.withSign ((F.unpack a.toNat).signBit != (F.unpack b.toNat).signBit) n, fl) =
      (((a ^^^ b) &&& M) ||| BitVec.ofNat w n, fl) := by
  rw [toWord, W.ofNat_withSign _ hn, signBit_unpack ha, signBit_unpack hb, W.xor_and_sign]

theorem toWord_xor_inf (fl : FFlags) (ha : (F.unpack a.toNat).isNaN = false) (hb : (F.unpack b.toNat).isNaN = false) :
    toWord w (F.withSign ((F.unpack a.toNat).signBit != (F.unpack b.toNat).signBit) F.infPattern, fl) =
      (((a ^^^ b) &&& M) ||| I, fl) := by
  rw [W.toWord_withSign_xor F.infPattern_lt_signWeight fl ha hb, W.inf]

theorem toWord_xor_zero (fl : FFlags) (ha : (F.unpack a.toNat).isNaN = false) (hb : (F.unpack b.toNat).isNaN = false) :
    toWord w (F.withSign ((F.unpack a.toNat).signBit != (F.unpack b.toNat).signBit) 0, fl) = ((a ^^^ b) &&& M, fl) := by
  rw [W.toWord_withSign_xor F.signWeight_pos fl ha hb]
  exact congrArg (·, fl) BitVec.or_zero

/-- Two zeros are the same word if their signs are the same. -/
theorem eq_of_zeros (ha : (F.unpack a.toNat).IsZero) (hb : (F.unpack b.toNat).IsZero)
    (same : (F.unpack a.toNat).signBit = (F.unpack b.toNat).signBit) : a = b := by
  have words := W.toWord_same_zero ha
  rw [same, W.toWord_same_zero hb] at words
  exact (congrArg Prod.fst words).symm

/-- The sign of a product, by the sign bits of its factors. -/
theorem signBit_product (np : Bool) (ha : (F.unpack a.toNat).isNaN = false) (hb : (F.unpack b.toNat).isNaN = false) :
    (((F.unpack a.toNat).negIf np).signBit != (F.unpack b.toNat).signBit) = (np != ((M &&& (a ^^^ b)) != 0)) := by
  rw [signBit_negIf np ha, W.sign_and_xor_ne_zero, signBit_unpack ha, signBit_unpack hb, Bool.bne_assoc]

end FpFmt.Words

/-! ## Operations on words of any format -/

section
variable (F : FpFmt) (w : Nat) (m : RoundingMode) (a b c : BitVec w)

/-- addS at width 32, addD at width 64; and so the others. -/
def addW : BitVec w × FFlags := toWord w (fpAddVal F m (F.unpack a.toNat) (F.unpack b.toNat))
def subW : BitVec w × FFlags := toWord w (fpAddVal F m (F.unpack a.toNat) (F.unpack b.toNat).neg)
def mulW : BitVec w × FFlags := toWord w (fpMulVal F m (F.unpack a.toNat) (F.unpack b.toNat))
def divW : BitVec w × FFlags := toWord w (fpDivVal F m (F.unpack a.toNat) (F.unpack b.toNat))
def sqrtW : BitVec w × FFlags := toWord w (fpSqrtVal F m (F.unpack a.toNat))
def fmaW (np na : Bool) : BitVec w × FFlags :=
  toWord w (fpFmaVal F m ((F.unpack a.toNat).negIf np) (F.unpack b.toNat) ((F.unpack c.toNat).negIf na))

end

namespace FpFmt.Words
variable {F : FpFmt} {w : Nat} {M I N : BitVec w} (W : F.Words w M I N) (m : RoundingMode) (a b c : BitVec w) (np na : Bool)
include W

/-- A difference is the sum with the sign of the second operand flipped. -/
theorem subW_eq_addW : subW F w m a b = addW F w m a (b ^^^ M) := by
  rw [subW, addW, W.unpack_xor_sign]

/-- NaN operands and invalid operations (R562, R567). -/
theorem invalid_operands :
    let x := F.unpack a.toNat; let y := F.unpack b.toNat; let z := F.unpack c.toNat
    let nan (nv : Bool) : BitVec w × FFlags := (N, if nv then 0b10000#5 else 0#5)
    ((x.isNaN || y.isNaN) = true →
      ∀ op ∈ [addW F w, subW F w, mulW F w, divW F w], op m a b = nan (x.isSignaling || y.isSignaling)) ∧
    (x.isNaN = true → sqrtW F w m a = nan x.isSignaling) ∧
    (∀ t, x = .inf t → y = .inf (!t) → addW F w m a b = nan true) ∧ (∀ t, x = .inf t → y = .inf t → subW F w m a b = nan true) ∧
    (∀ t, (x = .inf t ∧ y.IsZero) ∨ (x.IsZero ∧ y = .inf t) → mulW F w m a b = nan true ∧ fmaW F w m a b c np na = nan true) ∧
    (x.IsZero → y.IsZero → divW F w m a b = nan true) ∧ (∀ t u, x = .inf t → y = .inf u → divW F w m a b = nan true) ∧
    (∀ k e, x = .fin true k e → k ≠ 0 → sqrtW F w m a = nan true) ∧ (x = .inf true → sqrtW F w m a = nan true) ∧
    ((x.isNaN || y.isNaN || z.isNaN) = true → ¬IsZeroTimesInf x y →
      fmaW F w m a b c np na = nan (x.isSignaling || y.isSignaling || z.isSignaling)) ∧
    (∀ t u, x = .inf t ∨ y = .inf t → ¬x.isNaN → ¬y.isNaN → ¬IsZeroTimesInf x y →
      z = .inf u → (np != ((M &&& (a ^^^ b)) != 0)) ≠ (na != u) → fmaW F w m a b c np na = nan true) := by
  intro x y z nan
  have word {nv : Bool} {r : Nat × FFlags} (h : r = nanResult F nv) : toWord w r = nan nv :=
    (congrArg (toWord w) h).trans (W.toWord_nan nv)
  refine ⟨?arith, ?sqrtNaN, ?add, ?sub, ?mul, ?zeros, ?infs, ?negative, ?negInf, ?fmaNaN, ?fmaInf⟩
  case arith =>
    intro h
    simp only [List.forall_mem_cons]
    refine ⟨word (fpAddVal_nan F m h), ?_, word (fpMulVal_nan F m h), word (fpDivVal_nan F m h), nofun⟩
    exact (word (fpAddVal_nan F m (by rwa [isNaN_neg]))).trans (by rw [isSignaling_neg])
  case sqrtNaN => exact fun h => word (fpSqrtVal_nan F m h)
  case add => exact fun t hx hy => word (fpAddVal_inf_opposite F m hx hy (by simp))
  case sub => exact fun t hx hy => word (fpAddVal_inf_opposite F m hx (neg_of_inf hy) (by simp))
  case mul =>
    exact fun t h => ⟨word (fpMulVal_zero_inf F m ⟨t, h⟩), word (fpFmaVal_zero_inf F m ((isZeroTimesInf_negIf np).mpr ⟨t, h⟩))⟩
  case zeros => exact fun hx hy => word (fpDivVal_zero_zero F m hx hy)
  case infs => exact fun t u hx hy => word (fpDivVal_inf_inf F m hx hy)
  case negative => exact fun k e hx nonzero => word (fpSqrtVal_negative F m hx nonzero)
  case negInf => exact fun hx => word (fpSqrtVal_inf F m hx)
  case fmaNaN =>
    intro h hzero
    refine (word (fpFmaVal_nan F m ?_ (mt (isZeroTimesInf_negIf np).mp hzero))).trans ?_
    · rwa [isNaN_negIf, isNaN_negIf]
    · rw [isSignaling_negIf, isSignaling_negIf]
  case fmaInf =>
    intro t u inf hx hy hzero hz signs
    have product := hasInfProduct_of_inf inf (Bool.eq_false_iff.mpr hx) (Bool.eq_false_iff.mpr hy) hzero
    have addend := negIf_of_inf na hz
    rw [← W.signBit_product np product.isNaN.1 product.isNaN.2] at signs
    exact word ((fpFmaVal_inf F m (product.negIf np) (isNaN_of_inf addend)).trans (fpAddVal_inf_opposite F m rfl addend signs))

/-- Divisions by zero, and operations with an infinite or zero operand that are exact (R568, R569). -/
theorem exact_operands :
    let x := F.unpack a.toNat; let y := F.unpack b.toNat; let z := F.unpack c.toNat
    let signed (t : Bool) : BitVec w := if t then M ||| I else I; let pos := np != ((M &&& (a ^^^ b)) != 0)
    (x.IsNonzero → y.IsZero → divW F w m a b = (((a ^^^ b) &&& M) ||| I, 0b01000#5)) ∧
    (∀ t, x = .inf t → y.IsZero → divW F w m a b = (((a ^^^ b) &&& M) ||| I, 0#5)) ∧
    (x.IsZero → sqrtW F w m a = (a, 0#5)) ∧ (x.IsZero → y.IsZero → mulW F w m a b = ((a ^^^ b) &&& M, 0#5)) ∧
    (∀ t, x = .inf t → y.IsFinite → addW F w m a b = (a, 0#5) ∧ subW F w m a b = (a, 0#5)) ∧
    (∀ t, x.IsFinite → y = .inf t → addW F w m a b = (b, 0#5) ∧ subW F w m a b = (b ^^^ M, 0#5)) ∧
    (∀ t, x = .inf t → y = .inf t → addW F w m a b = (a, 0#5)) ∧ (∀ t, x = .inf t → y = .inf (!t) → subW F w m a b = (a, 0#5)) ∧
    (∀ t u, (x = .inf t ∧ (y = .inf u ∨ y.IsNonzero)) ∨ (x.IsNonzero ∧ y = .inf u) →
      mulW F w m a b = (((a ^^^ b) &&& M) ||| I, 0#5) ∧
      (z.IsFinite ∨ z = .inf (na != pos) → fmaW F w m a b c np na = (signed pos, 0#5))) ∧
    (∀ u, x.IsFinite → y.IsFinite → z = .inf u → fmaW F w m a b c np na = (signed (na != u), 0#5)) ∧
    (∀ t, x.IsFinite → y = .inf t → divW F w m a b = ((a ^^^ b) &&& M, 0#5)) ∧
    (∀ t, x = .inf t → y.IsNonzero → divW F w m a b = (((a ^^^ b) &&& M) ||| I, 0#5)) ∧
    (x.IsZero → y.IsNonzero → divW F w m a b = ((a ^^^ b) &&& M, 0#5)) ∧ (x = .inf false → sqrtW F w m a = (a, 0#5)) ∧
    (x.IsZero → y.IsZero → a = b → addW F w m a b = (a, 0#5)) ∧ (x.IsZero → y.IsZero → a ≠ b → subW F w m a b = (a, 0#5)) := by
  intro x y z signed pos
  have word {r : Nat × FFlags} (h : r = infResult F pos) : toWord w r = (signed pos, 0#5) :=
    (congrArg (toWord w) h).trans (W.toWord_inf pos)
  refine ⟨?byZero, ?infByZero, ?sqrtZero, ?mulZero, ?addInf, ?addToInf, ?infs, ?subInfs, ?product, ?addend, ?byInf, ?infBy,
    ?zeroBy, ?sqrtInf, ?addZeros, ?subZeros⟩
  case byZero =>
    intro hx hy
    rw [divW, fpDivVal_nonzero_zero F m hx hy]
    exact W.toWord_xor_inf _ hx.isFinite.isNaN hy.isFinite.isNaN
  case infByZero =>
    intro t hx hy
    rw [divW, fpDivVal_inf_finite F m hx hy.isFinite]
    exact W.toWord_xor_inf _ (isNaN_of_inf hx) hy.isFinite.isNaN
  case sqrtZero =>
    intro hx
    rw [sqrtW, fpSqrtVal_zero F m hx]
    exact W.toWord_same_zero hx
  case mulZero =>
    intro hx hy
    rw [mulW, fpMulVal_zero_zero F m hx hy]
    exact W.toWord_xor_zero _ hx.isFinite.isNaN hy.isFinite.isNaN
  case addInf =>
    intro t hx hy
    rw [addW, subW, fpAddVal_inf F m hx (.inl hy), fpAddVal_inf F m hx (.inl hy.neg)]
    exact ⟨W.toWord_same_inf hx, W.toWord_same_inf hx⟩
  case addToInf =>
    intro t hx hy
    have flipped : F.unpack (b ^^^ M).toNat = .inf (!t) := (W.unpack_xor_sign b).trans (neg_of_inf hy)
    rw [W.subW_eq_addW, addW, addW, fpAddVal_finite_inf F m hx hy, fpAddVal_finite_inf F m hx flipped]
    exact ⟨W.toWord_same_inf hy, W.toWord_same_inf flipped⟩
  case infs =>
    intro t hx hy
    rw [addW, fpAddVal_inf F m hx (.inr hy)]
    exact W.toWord_same_inf hx
  case subInfs =>
    intro t hx hy
    rw [subW, fpAddVal_inf F m hx (.inr (by rw [neg_of_inf hy, Bool.not_not]))]
    exact W.toWord_same_inf hx
  case product =>
    intro t u h
    have product : HasInfProduct x y := ⟨t, u, h⟩
    refine ⟨?_, fun hz => ?_⟩
    · rw [mulW, fpMulVal_inf F m product]
      exact W.toWord_xor_inf _ product.isNaN.1 product.isNaN.2
    · have addend : (z.negIf na).IsFinite ∨ z.negIf na = .inf pos :=
        hz.imp (IsFinite.negIf na) fun h => by rw [negIf_of_inf na h, ← Bool.bne_assoc, bne_self_eq_false, Bool.false_bne]
      have number : (z.negIf na).isNaN = false := addend.elim IsFinite.isNaN isNaN_of_inf
      have sign : ((x.negIf np).signBit != y.signBit) = pos := W.signBit_product np product.isNaN.1 product.isNaN.2
      exact word ((fpFmaVal_inf F m (product.negIf np) number).trans (fpAddVal_inf F m (congrArg FpVal.inf sign) addend))
  case addend =>
    intro u hx hy hz
    rw [fmaW, fpFmaVal_finite_inf F m (hx.negIf np) hy (negIf_of_inf na hz)]
    exact W.toWord_inf _
  case byInf =>
    intro t hx hy
    rw [divW, fpDivVal_finite_inf F m hx hy]
    exact W.toWord_xor_zero _ hx.isNaN (isNaN_of_inf hy)
  case infBy =>
    intro t hx hy
    rw [divW, fpDivVal_inf_finite F m hx hy.isFinite]
    exact W.toWord_xor_inf _ (isNaN_of_inf hx) hy.isFinite.isNaN
  case zeroBy =>
    intro hx hy
    rw [divW, fpDivVal_zero_nonzero F m hx hy]
    exact W.toWord_xor_zero _ hx.isFinite.isNaN hy.isFinite.isNaN
  case sqrtInf =>
    intro hx
    rw [sqrtW, fpSqrtVal_inf F m hx]
    exact W.toWord_same_inf hx
  case addZeros =>
    rintro hx hy rfl
    rw [addW, fpAddVal_zero_zero F m hx hy rfl]
    exact W.toWord_same_zero hx
  case subZeros =>
    intro hx hy other
    have signs : x.signBit = y.neg.signBit := by
      rw [signBit_neg hy.isFinite.isNaN, Bool.eq_not]
      exact fun same => other (W.eq_of_zeros hx hy same)
    rw [subW, fpAddVal_zero_zero F m hx hy.neg signs]
    exact W.toWord_same_zero hx

end FpFmt.Words

/-- Settles O32: the operations on words of any format, at the two formats. -/
theorem invalidAndDivideByZero : Obligations.InvalidAndDivideByZero := by
  constructor
  · intro m a b c np na
    obtain ⟨arith, sqrtNaN, add, sub, mul, zeros, infs, negative, negInf, fmaNaN, fmaInf⟩ :=
      FpFmt.single_words.invalid_operands m a b c np na
    exact ⟨arith, sqrtNaN, add, sub, mul, zeros, infs, negative, negInf, fmaNaN, fmaInf,
      FpFmt.single_words.exact_operands m a b c np na⟩
  · intro m a b c np na
    obtain ⟨arith, sqrtNaN, add, sub, mul, zeros, infs, negative, negInf, fmaNaN, fmaInf⟩ :=
      FpFmt.double_words.invalid_operands m a b c np na
    exact ⟨arith, sqrtNaN, add, sub, mul, zeros, infs, negative, negInf, fmaNaN, fmaInf,
      FpFmt.double_words.exact_operands m a b c np na⟩

end Sys2Proof.Machine
end

section
/-! PROOFS. The pipeline retires what a meaning says (spec/70_reset_and_hazards.md R922, R924, R943, R960): a meaning without
memory access is one register value, flags and a next pc, the same with the FP flags cleared, and a CSR instruction is its `csrOp`. -/
namespace Sys2Proof.Machine

namespace State

/-- The state with no FP flag set, which EX gives to a unit. -/
def clearFlags (s : State) : State := { s with csr := { s.csr with fflags := FFlags.none } }

/-- The state with v in register d, if there is one, as a retirement writes it: an FP register makes the FP state Dirty. -/
def put (s : State) (d : Option RegName) (v : Word) : State :=
  match d with
  | some (.x r) => s.writeX r v
  | some (.f r) => s.writeF r v
  | none => s

/-- Retire with a value for register d, flags, and the next pc. -/
def retireWith (s : State) (d : Option RegName) (v : Word) (fl : FFlags) (next : Word) : State :=
  ((s.put d v).accrue fl).retireTo next

/-! ## Destinations -/

theorem put_destX {i : Instr} {rd : Reg} (hd : destX i = some rd) (s : State) (v : Word) :
    s.put (destReg i) v = s.writeX rd v := by
  simp only [destReg, hd]
  split
  · rename_i h
    rw [h]
    rfl
  · rfl

theorem put_destF {i : Instr} {rd : Reg} (hx : destX i = none) (hf : destF i = some rd) (s : State) (v : Word) :
    s.put (destReg i) v = s.writeF rd v := by
  simp only [destReg, hx, hf]
  rfl

theorem put_noDest {i : Instr} (h : destReg i = none) (s : State) (v : Word) : s.put (destReg i) v = s := by
  rw [h]
  rfl

/-- x0 is no destination (R41). -/
theorem destReg_ne_x0 (i : Instr) : destReg i ≠ some (.x 0#5) := by
  unfold destReg
  split
  · split
    · nofun
    · rename_i h
      simpa using h
  · simp

@[simp] theorem put_fflags (s : State) (d : Option RegName) (v : Word) : (s.put d v).csr.fflags = s.csr.fflags := by
  rcases d with _ | r | r
  · rfl
  · exact congrArg Csrs.fflags (writeX_csr s r v)
  · rfl

@[simp] theorem put_ended (s : State) (d : Option RegName) (v : Word) : (s.put d v).ended = s.ended := by
  rcases d with _ | r | r
  · rfl
  · exact writeX_ended s r v
  · rfl

theorem readReg_put (s : State) {d : RegName} (h : d ≠ .x 0#5) (v : Word) : (s.put (some d) v).readReg d = v := by
  cases d with
  | x r => exact readX_writeX_same s v fun h0 => h (congrArg _ h0)
  | f r => exact readF_writeF_same s r v

/-! ## What a unit gives back -/

theorem accrue_fflags (s : State) (fl : FFlags) : (s.accrue fl).csr.fflags = s.csr.fflags ||| fl := by
  unfold accrue
  split
  · rename_i h
    rw [h]
    exact BitVec.or_zero.symm
  · rfl

theorem retireWith_clearFlags_fflags (s : State) (d : Option RegName) (v : Word) (fl : FFlags) (next : Word) :
    (s.clearFlags.retireWith d v fl next).csr.fflags = fl :=
  calc (s.clearFlags.retireWith d v fl next).csr.fflags = (s.clearFlags.put d v).csr.fflags ||| fl := accrue_fflags ..
    _ = fl := by rw [put_fflags]; exact BitVec.zero_or

theorem readReg_retireWith (s : State) {d : RegName} (h : d ≠ .x 0#5) (v : Word) (fl : FFlags) (next : Word) :
    (s.retireWith (some d) v fl next).readReg d = v := by
  refine Eq.trans ?_ (readReg_put s h v)
  cases d with
  | x r => exact readX_accrue _ fl r
  | f r => exact readF_accrue _ fl r

/-- Writing a register the value it was retired with. -/
theorem put_readReg_retireWith (s u : State) {d : Option RegName} (h : d ≠ some (.x 0#5)) (v : Word) (fl : FFlags)
    (next : Word) : s.put d ((d.map (u.retireWith d v fl next).readReg).getD 0#64) = s.put d v := by
  cases d with
  | none => rfl
  | some d => exact congrArg (s.put (some d)) (readReg_retireWith u (fun hd => h (congrArg some hd)) v fl next)

/-- Retiring an entry that holds what the unit gave back. -/
theorem retireEntry_unit {s : State} (running : s.ended = none) (i : Instr) (pc v : Word) (fl : FFlags) (next : Word) :
    let t := s.clearFlags.retireWith (destReg i) v fl next
    s.retireEntry ⟨pc, some i, ((destReg i).map t.readReg).getD 0#64, destReg i, t.csr.fflags, t.pc, none, none⟩ =
      s.retireWith (destReg i) v fl next := by
  intro t
  have ended : (s.retireWith (destReg i) v fl next).ended = none := by simp [retireWith, running]
  calc s.retireEntry _ = { s.retireWith (destReg i) (((destReg i).map t.readReg).getD 0#64) t.csr.fflags t.pc with
        ended := none } := rfl
    _ = { s.retireWith (destReg i) v fl next with ended := none } := by
      rw [retireWith, put_readReg_retireWith _ _ (destReg_ne_x0 i), retireWith_clearFlags_fflags]
      rfl
    _ = s.retireWith (destReg i) v fl next := by
      generalize s.retireWith (destReg i) v fl next = u at ended
      rw [← ended]

end State

open State

/-! ## Meanings without memory access -/

/-- The answers of instruction i in s and with the flags cleared: both retire with the same value, flags and next pc, or the
first is an exception. -/
inductive UnitForm (i : Instr) (s : State) : Result → Result → Prop where
  | retires (v : Word) (fl : FFlags) (next : Word) :
      UnitForm i s (.next (s.retireWith (destReg i) v fl next)) (.next (s.clearFlags.retireWith (destReg i) v fl next))
  | raises (e : Exc) (v : Word) (r : Result) : UnitForm i s (s.raiseExc e v) r

namespace UnitForm

variable {i : Instr} {s : State}

theorem writesX {rd : Reg} (hd : destX i = some rd) (v : Word) (fl : FFlags) (next : Word) :
    UnitForm i s (.next (((s.writeX rd v).accrue fl).retireTo next))
      (.next (((s.clearFlags.writeX rd v).accrue fl).retireTo next)) := by
  rw [← put_destX hd, ← put_destX hd]
  exact .retires v fl next

theorem writesF {rd : Reg} (hx : destX i = none) (hf : destF i = some rd) (v : Word) (fl : FFlags) (next : Word) :
    UnitForm i s (.next (((s.writeF rd v).accrue fl).retireTo next))
      (.next (((s.clearFlags.writeF rd v).accrue fl).retireTo next)) := by
  rw [← put_destF hx hf, ← put_destF hx hf]
  exact .retires v fl next

theorem moves (h : destReg i = none) (next : Word) :
    UnitForm i s (.next (s.retireTo next)) (.next (s.clearFlags.retireTo next)) := by
  have form := UnitForm.retires (i := i) (s := s) 0#64 FFlags.none next
  rwa [retireWith, retireWith, put_noDest h, put_noDest h] at form

theorem result {rd : Reg} (hd : destX i = some rd) (v size : Word) :
    UnitForm i s (s.result rd v size) (s.clearFlags.result rd v size) := writesX hd v FFlags.none _

theorem jumpAndLink {rd : Reg} (hd : destX i = some rd) (target size : Word) :
    UnitForm i s (s.jumpAndLink rd target size) (s.clearFlags.jumpAndLink rd target size) :=
  writesX hd _ FFlags.none _

theorem branch (h : destReg i = none) (taken : Bool) (offset size : Word) :
    UnitForm i s (s.branch taken offset size) (s.clearFlags.branch taken offset size) := moves h _

theorem resultS {rd : Reg} (hx : destX i = none) (hf : destF i = some rd) (r : BitVec 32) (fl : FFlags) :
    UnitForm i s (s.resultS rd r fl) (s.clearFlags.resultS rd r fl) := writesF hx hf _ fl _

theorem resultD {rd : Reg} (hx : destX i = none) (hf : destF i = some rd) (r : BitVec 64) (fl : FFlags) :
    UnitForm i s (s.resultD rd r fl) (s.clearFlags.resultD rd r fl) := writesF hx hf _ fl _

theorem resultX {rd : Reg} (hd : destX i = some rd) (v : Word) (fl : FFlags) :
    UnitForm i s (s.resultX rd v fl) (s.clearFlags.resultX rd v fl) := writesX hd v fl _

/-- The check of FS reads no flag. -/
theorem guarded {bits : Word} {r r' : Result} (h : UnitForm i s r r') :
    UnitForm i s (s.fpGuard bits r) (s.clearFlags.fpGuard bits r') := by
  unfold State.fpGuard
  rw [show s.clearFlags.fpEnabled = s.fpEnabled from rfl]
  split
  · exact h
  · exact .raises ..

/-- The rounding mode is the same whatever flags are set. -/
theorem rounded {bits : Word} {rm : BitVec 3} {k k' : RoundingMode → Result} (h : ∀ m, UnitForm i s (k m) (k' m)) :
    UnitForm i s (s.fpRounded bits rm k) (s.clearFlags.fpRounded bits rm k') := by
  refine guarded ?_
  rw [show s.clearFlags.roundingMode rm = s.roundingMode rm from rfl]
  cases s.roundingMode rm with
  | some m => exact h m
  | none => exact .raises ..

end UnitForm

/-- The answers of an instruction that neither accesses memory nor acts at writeback have one of the forms. -/
theorem exec_unitForm {i : Instr} (hm : usesMemory i = false) (hw : actsAtWriteback i = false) (s : State) :
    UnitForm i s (exec i s) (exec i s.clearFlags) := by
  unfold exec
  cases i with
  | lui | auipc | addi | slti | sltiu | xori | ori | andi | slli | srli | srai | add | sub | sll | slt | sltu | xor
  | srl | sra | or | and | addiw | slliw | srliw | sraiw | addw | subw | sllw | srlw | sraw | mul | mulh | mulhsu
  | mulhu | div | divu | rem | remu | mulw | divw | divuw | remw | remuw | cAddi4spn | cAddi | cAddiw | cLi
  | cAddi16sp | cLui | cSrli | cSrai | cAndi | cSub | cXor | cOr | cAnd | cSubw | cAddw | cSlli | cMv | cAdd =>
    exact .result rfl ..
  | jal | jalr | cJ | cJr | cJalr =>
    exact .jumpAndLink rfl ..
  | beq | bne | blt | bge | bltu | bgeu | cBeqz | cBnez =>
    exact .branch rfl ..
  | fence | cNop =>
    exact .moves rfl _
  | fmaddS | fmsubS | fnmsubS | fnmaddS | faddS | fsubS | fmulS | fdivS | fsqrtS | fcvtSW | fcvtSWu | fcvtSL
  | fcvtSLu | fcvtSD =>
    exact .rounded fun _ => .resultS rfl rfl ..
  | fmaddD | fmsubD | fnmsubD | fnmaddD | faddD | fsubD | fmulD | fdivD | fsqrtD | fcvtDW | fcvtDWu | fcvtDL
  | fcvtDLu | fcvtDS =>
    exact .rounded fun _ => .resultD rfl rfl ..
  | fcvtWS | fcvtWuS | fcvtLS | fcvtLuS | fcvtWD | fcvtWuD | fcvtLD | fcvtLuD =>
    exact .rounded fun _ => .resultX rfl ..
  | fsgnjS | fsgnjnS | fsgnjxS | fminS | fmaxS | fmvWX =>
    exact .guarded (.resultS rfl rfl ..)
  | fsgnjD | fsgnjnD | fsgnjxD | fminD | fmaxD | fmvDX =>
    exact .guarded (.resultD rfl rfl ..)
  | fmvXW | feqS | fltS | fleS | fclassS | fmvXD | feqD | fltD | fleD | fclassD =>
    exact .guarded (.resultX rfl ..)
  | lb | lh | lw | ld | lbu | lhu | lwu | cLw | cLd | cLwsp | cLdsp | sb | sh | sw | sd | cSw | cSd | cSwsp | cSdsp
  | flw | fld | cFld | cFldsp | fsw | fsd | cFsd | cFsdsp | lrW | lrD | scW | scD | amoswapW | amoaddW | amoxorW
  | amoandW | amoorW | amominW | amomaxW | amominuW | amomaxuW | amoswapD | amoaddD | amoxorD | amoandD | amoorD
  | amominD | amomaxD | amominuD | amomaxuD =>
    exact nomatch hm
  | ecall | ebreak | cEbreak | mret | sret | wfi | sfenceVma | fenceI | csrrw | csrrs | csrrc | csrrwi | csrrsi
  | csrrci =>
    exact nomatch hw

/-- An instruction that does nothing in the memory stage accesses no data. -/
theorem dataAccess_eq_none {i : Instr} (h : usesMemory i = false) (s : State) : dataAccess i s = none := by
  unfold usesMemory instrClass at h
  unfold dataAccess
  generalize (expansion i).getD i = j at h
  cases j with
  | lb | lh | lw | ld | lbu | lhu | lwu | sb | sh | sw | sd | flw | fld | fsw | fsd | lrW | lrD | scW | scD | amoswapW
  | amoaddW | amoxorW | amoandW | amoorW | amominW | amomaxW | amominuW | amomaxuW | amoswapD | amoaddD | amoxorD
  | amoandD | amoorD | amominD | amomaxD | amominuD | amomaxuD =>
    exact nomatch h
  | _ => rfl

/-! ## From decode to writeback -/

namespace State

/-- The entry decode makes of instruction i at pc, predicted to be followed by the next one in order (R925). -/
def entryAt (s : State) (i : Instr) : IdEx :=
  ⟨s.pc, some i, BitVec.ofNat 64 (instrSize i), (sources i).map s.readReg, s.pc + BitVec.ofNat 64 (instrSize i), none⟩

/-- A unit given the operands decode read runs the meaning in the state as it is, but for the flags. -/
theorem runUnit_readRegs {s t : State} {i : Instr} (h : exec i s.clearFlags = .next t) (ht : t.atBoundary = true) :
    s.runUnit s.pc i ((sources i).map s.readReg) = .ok t := by
  have input : s.unitInput s.pc i ((sources i).map s.readReg) = s.clearFlags := by
    rw [unitInput, withOperands_self]
    rfl
  rw [runUnit, input, h]
  simp [ht]

/-- What reaches writeback of an instruction whose unit retires: the register value, the flags and the next pc it gave. -/
theorem executeEntry_unit {s t : State} {i : Instr} (hm : usesMemory i = false)
    (hw : (actsAtWriteback i && !isCsr i) = false) (h : exec i s.clearFlags = .next t) (ht : t.atBoundary = true) :
    (s.executeEntry (s.entryAt i) (s.entryAt i).rv).trap = none ∧
    passMemory (s.executeEntry (s.entryAt i) (s.entryAt i).rv) =
      ⟨s.pc, some i, ((destReg i).map t.readReg).getD 0#64, destReg i, t.csr.fflags, t.pc, none, none⟩ := by
  simp only [executeEntry, entryAt, hw, dataAccess_eq_none hm, runUnit_readRegs h ht, Bool.false_eq_true, if_false]
  exact ⟨trivial, rfl⟩

end State

/-- An instruction without memory access: EX gives what its meaning does to the registers, and writeback does it. -/
theorem retireEntry_executeEntry {i : Instr} {s t : State} (h : exec i s = .next t) (ht : t.atBoundary = true)
    (hm : usesMemory i = false) (hw : actsAtWriteback i = false) (running : s.ended = none) :
    let out := s.executeEntry (s.entryAt i) (s.entryAt i).rv
    out.trap = none ∧ s.retireEntry (passMemory out) = t := by
  have form := exec_unitForm hm hw s
  generalize hr : exec i s = r at form h
  generalize hr' : exec i s.clearFlags = r' at form
  cases form with
  | retires v fl next =>
    cases h
    obtain ⟨untrapped, entry⟩ := executeEntry_unit hm (by rw [hw]; rfl) hr' rfl
    exact ⟨untrapped, entry ▸ retireEntry_unit running i s.pc v fl next⟩
  | raises => exact absurd ht (not_retired_of_raiseExc h)

/-! ## CSR instructions -/

theorem usesMemory_of_isCsr {i : Instr} (h : isCsr i = true) : usesMemory i = false := by
  cases i with
  | csrrw | csrrs | csrrc | csrrwi | csrrsi | csrrci => rfl
  | _ => exact nomatch h

/-- A CSR instruction is csrOp of its register, its CSR and whether it writes (R713 to R719). -/
theorem exec_csr {i : Instr} (h : isCsr i = true) : ∃ rd a writes, destX i = some rd ∧ csrNamed i = csrOf a ∧
    ∀ s, ∃ bits new, exec i s = s.csrOp bits rd a writes new := by
  unfold exec
  cases i with
  | csrrw | csrrs | csrrc | csrrwi | csrrsi | csrrci =>
    exact ⟨_, _, _, rfl, rfl, fun s => ⟨_, _, rfl⟩⟩
  | _ => exact nomatch h

namespace State

/-- An allowed CSR access retires with rd the value the CSR had (R713). -/
theorem csrOp_retires {s : State} {a : BitVec 12} {writes : Bool} {c : CsrName} (h : s.csrAccess a writes = some c)
    (bits : Word) (rd : Reg) (new : Word → Word) : ∃ t, s.csrOp bits rd a writes new = .next t ∧ t.atBoundary = true ∧
      t.readX rd = (s.writeX rd (s.readCsr c)).readX rd := by
  cases writes with
  | false => exact ⟨_, csrOp_reads h, rfl, rfl⟩
  | true =>
    obtain ⟨_, _, _, _, hw⟩ :=
      ((s.writeX rd (s.readCsr c)).retireTo (s.pc + 4#64)).writeCsr_frame c (new (s.csrBase c))
    refine ⟨_, csrOp_writes rfl h, ?_, ?_⟩ <;> rw [hw] <;> rfl

/-- A CSR access that is refused is illegal (R711). -/
theorem csrOp_refused {s : State} {a : BitVec 12} {w writes : Bool} (hw : w = writes) (h : s.csrAccess a writes = none)
    (bits : Word) (rd : Reg) (new : Word → Word) : s.csrOp bits rd a w new = s.raiseExc .illegalInstruction bits := by
  rw [csrOp, hw, h]
  rfl

theorem csrAccess_of_retired {s t : State} {a : BitVec 12} {writes : Bool} {bits : Word} {rd : Reg} {new : Word → Word}
    (h : s.csrOp bits rd a writes new = .next t) (ht : t.atBoundary = true) : ∃ c, s.csrAccess a writes = some c := by
  cases ha : s.csrAccess a writes with
  | none => exact absurd ht (not_retired_of_raiseExc ((csrOp_refused rfl ha bits rd new).symm.trans h))
  | some c => exact ⟨c, rfl⟩

theorem csrOf_of_csrAccess {s : State} {a : BitVec 12} {writes : Bool} {c : CsrName} (h : s.csrAccess a writes = some c) :
    csrOf a = some c := by
  unfold csrAccess at h
  split at h
  · cases h
  · split at h <;> cases h
    assumption

/-- The flags show in the CSRs read at writeback alone (log 34). -/
theorem readCsr_clearFlags {c : CsrName} (h : readAtWriteback c = false) (s : State) :
    s.clearFlags.readCsr c = s.readCsr c := by
  cases c with
  | fflags | fcsr => exact nomatch h
  | _ => rfl

/-- A CSR instruction at its writeback: its meaning, with rd the value EX read, unless the CSR is read at writeback. -/
theorem retireCsr_retired {s t : State} {e : MemWb} {i : Instr} {rd : Reg} (hpc : e.pc = s.pc) (hdest : e.dest = destReg i)
    (hd : destX i = some rd) (h : exec i s = .next t) (ht : t.atBoundary = true) :
    s.retireCsr e i = .next (if (csrNamed i).any readAtWriteback then t else t.writeX rd e.wbValue) := by
  have same : exec i { s with pc := e.pc } = .next t := by
    rw [hpc]
    exact h
  simp only [retireCsr, same, hdest, destReg, hd, ht]
  by_cases h0 : rd = 0#5
  · subst h0
    simp
  · cases (csrNamed i).any readAtWriteback <;> simp [h0]

/-- Writing rd the value that reaches writeback for it. -/
theorem writeX_wbValue {i : Instr} {rd : Reg} (hd : destX i = some rd) (s t : State) :
    s.writeX rd (((destReg i).map t.readReg).getD 0#64) = s.writeX rd (t.readX rd) := by
  by_cases h0 : rd = 0#5
  · rw [h0, writeX_zero, writeX_zero]
  · simp [destReg, hd, h0, readReg]

theorem readX_writeX_readX (s t : State) (rd : Reg) : (s.writeX rd (t.readX rd)).readX rd = t.readX rd := by
  by_cases h0 : rd = 0#5
  · rw [h0, readX_zero, readX_zero]
  · exact readX_writeX_same s _ h0

end State

/-- A CSR instruction that retires in s retires wherever the access check answers as in s, and rd gets what the CSR reads there. -/
theorem exec_csr_retired {i : Instr} {s t : State} (h : exec i s = .next t) (ht : t.atBoundary = true)
    (hi : isCsr i = true) : ∃ rd c, destX i = some rd ∧ csrNamed i = some c ∧
    ∀ u : State, (∀ a writes, u.csrAccess a writes = s.csrAccess a writes) →
      ∃ t', exec i u = .next t' ∧ t'.atBoundary = true ∧ t'.readX rd = (u.writeX rd (u.readCsr c)).readX rd := by
  obtain ⟨rd, a, writes, hd, hn, op⟩ := exec_csr hi
  obtain ⟨bits, new, hs⟩ := op s
  obtain ⟨c, access⟩ := csrAccess_of_retired (hs.symm.trans h) ht
  refine ⟨rd, c, hd, hn.trans (csrOf_of_csrAccess access), fun u hu => ?_⟩
  obtain ⟨bits, new, hs⟩ := op u
  rw [hs]
  exact csrOp_retires ((hu a writes).trans access) bits rd new

/-- A CSR instruction that retires: EX reads the old value, which writeback gives rd whatever the lines are by then. -/
theorem retireCsr_executeEntry {i : Instr} {s t : State} (h : exec i s = .next t) (ht : t.atBoundary = true)
    (hi : isCsr i = true) :
    let out := s.executeEntry (s.entryAt i) (s.entryAt i).rv
    out.trap = none ∧ s.retireCsr (passMemory out) i = .next t ∧
    ∀ (l : Lines) (rd : Reg), csrNamed i = some .mip ∨ csrNamed i = some .sip → destX i = some rd →
      ∃ u, State.retireCsr { s with lines := l } (passMemory out) i = .next u ∧ u.readX rd = t.readX rd := by
  obtain ⟨rd, c, hd, named, retires⟩ := exec_csr_retired h ht hi
  obtain ⟨_, hs, -, old⟩ := retires s fun _ _ => rfl
  cases h.symm.trans hs
  obtain ⟨t', h', ht', old'⟩ := retires s.clearFlags fun _ _ => rfl
  obtain ⟨untrapped, entry⟩ := executeEntry_unit (usesMemory_of_isCsr hi) (by rw [hi, Bool.not_true, Bool.and_false]) h' ht'
  -- what EX read is the CSR's old value, but for what is read at writeback
  have read (hc : readAtWriteback c = false) : t'.readX rd = t.readX rd := by
    rw [old, old', readCsr_clearFlags hc, readX_writeX, readX_writeX]
    rfl
  intro out
  rw [show passMemory out = _ from entry]
  refine ⟨untrapped, ?_, fun l r hn hr => ?_⟩
  · rw [retireCsr_retired rfl rfl hd h ht, named, writeX_wbValue hd]
    cases hc : readAtWriteback c with
    | true => simp [hc]
    | false =>
      rw [read hc, show t.writeX rd (t.readX rd) = t from withReg_self t (.x rd), ite_self]
  · cases hd.symm.trans hr
    have hc : readAtWriteback c = false := by
      rcases hn with hn | hn <;> cases named.symm.trans hn <;> rfl
    obtain ⟨u, hu, hut, -⟩ := retires { s with lines := l } fun _ _ => rfl
    refine ⟨_, retireCsr_retired rfl rfl hd hu hut, ?_⟩
    rw [named, writeX_wbValue hd, read hc]
    simp [hc, readX_writeX_readX]

/-- Settles O60: EX runs the meaning with the flags cleared; writeback adds the flags and writes what EX gave. -/
theorem pipelineRetiresWhatExecSays : Obligations.PipelineRetiresWhatExecSays :=
  fun _ _ _ h ht => ⟨retireEntry_executeEntry h ht, retireCsr_executeEntry h ht⟩

end Sys2Proof.Machine
end

section
/-! PROOFS. System instructions (spec/47_system.md R700 to R720): calls, breakpoints, returns from traps, and which CSR
access is illegal. -/
namespace Sys2Proof.Machine

open State

/-- Settles O38: each is one exception or one return, and the mode says which. -/
theorem callsBreakpointsAndReturns : Obligations.CallsBreakpointsAndReturns := by
  refine ⟨fun s => ⟨?_, rfl, rfl, rfl, rfl, rfl, rfl⟩,
    fun s => ⟨fun h => if_pos h, fun h => ?_, fun h => if_neg h, fun h => ?_⟩⟩
  · show s.raiseExc s.ecallExc 0#64 = _
    unfold ecallExc
    cases s.priv <;> rfl
  · exact if_pos ((allowedBelowM_iff ..).mpr h)
  · exact if_neg (Bool.not_eq_true _ ▸ (not_allowedBelowM_iff ..).mpr h)

/-! ## The address map (R53) -/

/-- The addresses of the implemented CSRs. -/
def csrTable : List Nat :=
  [0x001, 0x002, 0x003, 0x100, 0x104, 0x105, 0x106, 0x140, 0x141, 0x142, 0x143, 0x144, 0x180, 0x320] ++
    List.range' 0x300 7 ++ List.range' 0x323 29 ++ List.range' 0x340 5 ++ List.range' 0x3A0 8 2 ++ List.range' 0x3B0 64 ++
    [0xB00] ++ List.range' 0xB02 30 ++ List.range' 0xC00 32 ++ List.range' 0xF11 5

theorem csrOf_isSome_of_mem : ∀ n ∈ csrTable, (csrOf (BitVec.ofNat 12 n)).isSome = true := by
  unfold csrTable
  simp only [List.forall_mem_append]
  decide

theorem mem_range'_pmpcfg (n : Nat) : n ∈ List.range' 0x3A0 8 2 ↔ 0x3A0 ≤ n ∧ n ≤ 0x3AE ∧ n % 2 = 0 := by
  rw [List.mem_range']
  constructor
  · rintro ⟨i, hi, rfl⟩
    omega
  · rintro ⟨h, h', even⟩
    exact ⟨(n - 0x3A0) / 2, by omega, by omega⟩

theorem mem_csrTable_of_csrOf {a : BitVec 12} {c : CsrName} (h : csrOf a = some c) : a.toNat ∈ csrTable := by
  unfold csrOf at h
  split at h
  case h_37 =>
    simp only [csrTable, List.mem_append, mem_range'_pmpcfg, List.mem_range'_1]
    simp only [Bool.and_eq_true, decide_eq_true_eq, beq_iff_eq] at h
    (repeat' split at h) <;> cases h <;> omega
  all_goals decide

/-- The table lists the addresses that name a CSR. -/
theorem mem_csrTable_iff (a : BitVec 12) : a.toNat ∈ csrTable ↔ ∃ c, csrOf a = some c := by
  refine ⟨fun h => ?_, fun ⟨_, h⟩ => mem_csrTable_of_csrOf h⟩
  have named := csrOf_isSome_of_mem _ h
  rwa [BitVec.ofNat_toNat, BitVec.setWidth_eq, Option.isSome_iff_exists] at named

/-! ## The access check (R711) -/

namespace State

/-- The address n is of a CSR that its own rule bars: an FP CSR while FS is Off, satp while it is trapped, or a counter that is
not enabled for the mode (R711(d) to (f)). -/
def CsrBarred (s : State) (n : Nat) : Prop :=
  (n ∈ [1, 2, 3] ∧ s.csr.mstatus.fs = 0#2) ∨ (n = 0x180 ∧ s.priv = .S ∧ s.csr.mstatus.tvm = true) ∨
  (0xC00 ≤ n ∧ n < 0xC20 ∧
    ((s.priv = .S ∧ s.csr.mcounteren.getLsbD (n % 32) = false) ∨
     (s.priv = .U ∧ (s.csr.mcounteren.getLsbD (n % 32) = false ∨ s.csr.scounteren.getLsbD (n % 32) = false))))

theorem counterOk_eq_false_iff {s : State} {n k : Nat} (hk : k < 32) (hn : n = 0xC00 + k) :
    s.counterOk k = false ↔ s.CsrBarred n := by
  have index : n % 32 = k := by omega
  have low : 0xC00 ≤ n := by omega
  have high : n < 0xC20 := by omega
  have fp : n ∉ [1, 2, 3] := by simp only [List.mem_cons, List.not_mem_nil, or_false]; omega
  have satp : n ≠ 0x180 := by omega
  unfold counterOk CsrBarred
  rw [index]
  cases s.priv <;> simp [low, high, fp, satp, -Bool.and_eq_false_imp, Bool.and_eq_false_iff]

/-- The check that depends on the CSR itself, by its address. -/
theorem csrOwnCheck_eq_false_iff {s : State} {c : CsrName} {n : Nat} (hc : c.At n) :
    s.csrOwnCheck c = false ↔ s.CsrBarred n := by
  cases c with
  | fflags | frm | fcsr | satp =>
    rw [show n = _ from hc]
    simp [csrOwnCheck, CsrBarred]
  | cycle => exact counterOk_eq_false_iff (by decide) hc
  | time => exact counterOk_eq_false_iff (by decide) hc
  | instret => exact counterOk_eq_false_iff (by decide) hc
  | hpmcounter k =>
    obtain ⟨hn, -, hk⟩ := hc
    exact counterOk_eq_false_iff (by omega) hn
  | _ =>
    refine iff_of_false nofun fun barred => ?_
    simp only [CsrName.At] at hc
    simp only [CsrBarred, List.mem_cons, List.not_mem_nil, or_false] at barred
    omega

theorem csrAccess_eq_none_iff {s : State} {a : BitVec 12} {c : CsrName} (ha : csrOf a = some c) (writes : Bool) :
    s.csrAccess a writes = none ↔
      s.priv.code.toNat < a.toNat / 256 % 4 ∨ (writes = true ∧ a.toNat / 1024 = 3) ∨ s.csrOwnCheck c = false := by
  have priv : s.csrPrivOk a = false ↔ s.priv.code.toNat < a.toNat / 256 % 4 := by
    rw [← Bool.not_eq_true, csrPrivOk_iff, Nat.not_le]
  have readOnly : (a.extractLsb' 10 2 == 3#2) = true ↔ a.toNat / 1024 = 3 := by
    rw [beq_iff_eq, ← BitVec.toNat_inj, readOnlyField_toNat]
    rfl
  calc s.csrAccess a writes = none
      ↔ (s.csrPrivOk a && !(writes && a.extractLsb' 10 2 == 3#2) && s.csrOwnCheck c) = false := by
        simp only [csrAccess, ha]
        split
        · exact iff_of_false nofun (ne_false_of_eq_true ‹_›)
        · exact iff_of_true rfl (Bool.not_eq_true _ ▸ ‹_›)
    _ ↔ _ := by
        rw [Bool.and_eq_false_iff, Bool.and_eq_false_iff, priv, Bool.not_eq_false', Bool.and_eq_true, readOnly, or_assoc]

end State

/-- Settles O42: where the table names a CSR, the check fails by its mode, its read-only field or its own rule. -/
theorem csrAccessCheck : Obligations.CsrAccessCheck := by
  constructor
  · intro s a writes n k table
    have listed : n ∈ table ↔ ∃ c, csrOf a = some c := mem_csrTable_iff a
    cases ha : csrOf a with
    | none => exact iff_of_true (by rw [csrAccess, ha]) (.inl (by simp [listed, ha]))
    | some c =>
      rw [csrAccess_eq_none_iff ha, csrOwnCheck_eq_false_iff (CsrName.at_of_csrOf ha)]
      exact (or_iff_right (not_not.mpr (listed.mpr ⟨c, ha⟩))).symm
  · intro s rd rs1 csr u
    dsimp only [exec, execCsrrw, execCsrrs, execCsrrc, execCsrrwi, execCsrrsi, execCsrrci]
    refine ⟨fun h => ⟨csrOp_refused rfl h .., csrOp_refused rfl h .., fun hr => ?_, fun hu => ?_⟩, fun h => ?_⟩
    · exact ⟨csrOp_refused (bne_iff_ne.mpr hr) h .., csrOp_refused (bne_iff_ne.mpr hr) h ..⟩
    · exact ⟨csrOp_refused (bne_iff_ne.mpr hu) h .., csrOp_refused (bne_iff_ne.mpr hu) h ..⟩
    · exact ⟨csrOp_refused rfl h .., csrOp_refused rfl h .., csrOp_refused rfl h .., csrOp_refused rfl h ..⟩

end Sys2Proof.Machine
end

section
/-! PROOFS. Interrupts (spec/60_exceptions.md R811 to R814): which one is taken and when, and the steps that run no
instruction. -/
namespace Sys2Proof.Machine

namespace Irq

/-- The place of an interrupt in the order of R814. -/
def rank : Irq → Nat
  | .mei => 0
  | .msi => 1
  | .mti => 2
  | .sei => 3
  | .ssi => 4
  | .sti => 5

theorem rank_lt (i : Irq) : i.rank < 6 := by cases i <;> decide

end Irq

namespace State

theorem mem_irqOrder (i : Irq) : i ∈ irqOrder := by cases i <;> decide

/-- The first interrupt in the order that meets a condition comes before every other one that does. -/
theorem irqOrder_find?_some {p : Irq → Bool} {i : Irq} (h : irqOrder.find? p = some i) :
    p i = true ∧ ∀ j, p j = true → j ≠ i → i.rank < j.rank := by
  obtain ⟨hi, before, after, order, skipped⟩ := List.find?_eq_some_iff_append.mp h
  have sorted : irqOrder.Pairwise fun a b => a.rank < b.rank := by decide
  refine ⟨hi, fun j hj hne => ?_⟩
  rw [order, List.pairwise_append, List.pairwise_cons] at sorted
  obtain ⟨-, ⟨later, -⟩, -⟩ := sorted
  have listed := mem_irqOrder j
  rw [order, List.mem_append, List.mem_cons] at listed
  rcases listed with hb | rfl | ha
  · exact absurd (skipped j hb) (by rw [hj]; decide)
  · exact absurd rfl hne
  · exact later j ha

theorem irqOrder_find?_none {p : Irq → Bool} (h : irqOrder.find? p = none) (i : Irq) : p i = false :=
  Bool.not_eq_true _ ▸ List.find?_eq_none.mp h i (mem_irqOrder i)

/-- The place of an interrupt among all that may be enabled: those that go to M first (R814). -/
def place (s : State) (i : Irq) : Nat := i.rank + if s.delegated i then 6 else 0

theorem pendingIrq_none {s : State} (h : s.pendingIrq = none) (i : Irq) : s.irqEnabled i = false := by
  unfold pendingIrq at h
  split at h
  · cases h
  · exact irqOrder_find?_none h i

/-- The interrupt chosen is enabled and comes first. -/
theorem pendingIrq_some {s : State} {i : Irq} (h : s.pendingIrq = some i) :
    s.irqEnabled i = true ∧ ∀ j, s.irqEnabled j = true → j ≠ i → s.place i < s.place j := by
  have below := i.rank_lt
  unfold pendingIrq at h
  split at h
  · rename_i hm
    cases h
    obtain ⟨hi, first⟩ := irqOrder_find?_some hm
    rw [Bool.and_eq_true, Bool.not_eq_true'] at hi
    obtain ⟨enabled, toM⟩ := hi
    refine ⟨enabled, fun j hj hne => ?_⟩
    rw [place, place, toM]
    cases hd : s.delegated j with
    | false => simpa using first j (by simp [hj, hd]) hne
    | true => exact Nat.lt_of_lt_of_le below (Nat.le_add_left 6 j.rank)
  · rename_i hm
    have toS (j : Irq) (hj : s.irqEnabled j = true) : s.delegated j = true := by
      simpa [hj] using irqOrder_find?_none hm j
    obtain ⟨enabled, first⟩ := irqOrder_find?_some h
    refine ⟨enabled, fun j hj hne => ?_⟩
    rw [place, place, toS i enabled, toS j hj]
    exact Nat.add_lt_add_right (first j hj hne) _

/-- The choice is the one enabled interrupt that comes first, if there is one (R814). -/
theorem pendingIrq_eq_some_iff (s : State) (i : Irq) : s.pendingIrq = some i ↔
    s.irqEnabled i = true ∧ ∀ j, s.irqEnabled j = true → j ≠ i → s.place i < s.place j := by
  refine ⟨pendingIrq_some, fun ⟨enabled, first⟩ => ?_⟩
  cases h : s.pendingIrq with
  | none => exact nomatch enabled.symm.trans (pendingIrq_none h i)
  | some k =>
    obtain ⟨enabled', first'⟩ := pendingIrq_some h
    by_contra hne
    have hki : k ≠ i := fun e => hne (congrArg some e)
    exact Nat.lt_asymm (first k enabled' hki) (first' i enabled hki.symm)

theorem pendingIrq_eq_none_iff (s : State) : s.pendingIrq = none ↔ ∀ i, ¬s.irqEnabled i = true := by
  refine ⟨fun h i => ne_true_of_eq_false (pendingIrq_none h i), fun h => ?_⟩
  cases hp : s.pendingIrq with
  | none => rfl
  | some i =>
    obtain ⟨enabled, -⟩ := pendingIrq_some hp
    exact absurd enabled (h i)

/-- An interrupt is enabled for the current mode (R811). -/
theorem irqEnabled_iff (s : State) (i : Irq) : s.irqEnabled i = true ↔
    (s.readCsr .mip &&& s.readCsr .mie).getLsbD i.code = true ∧
      ((¬s.csr.mideleg.getLsbD i.code = true ∧ (s.priv ≠ .M ∨ s.csr.mstatus.mie = true)) ∨
       (s.csr.mideleg.getLsbD i.code = true ∧ (s.priv = .U ∨ (s.priv = .S ∧ s.csr.mstatus.sie = true)))) := by
  simp only [irqEnabled, delegated, readCsr, BitVec.getLsbD_and, Bool.and_eq_true, and_comm (a := s.mip.getLsbD _ = true)]
  refine and_congr_right fun _ => ?_
  by_cases hd : s.csr.mideleg.getLsbD i.code = true <;> simp [hd]

/-! ## Boundaries (R813) -/

theorem interruptNow_eq_some_iff (s : State) (i : Irq) :
    s.interruptNow = some i ↔ (s.atBoundary = true ∨ s.waiting = true) ∧ s.pendingIrq = some i := by
  simp [interruptNow]

theorem interruptNow_enterTrap {s : State} (h : s.waiting = false) (c : TrapCause) (epc tval : Word) :
    (s.enterTrap c epc tval).interruptNow = none := by
  simp [interruptNow, h]

/-- In M-mode with MIE clear no interrupt is enabled (R811). -/
theorem pendingIrq_machine {s : State} (hp : s.priv = .M) (hm : s.csr.mstatus.mie = false) : s.pendingIrq = none :=
  (pendingIrq_eq_none_iff s).mpr fun i => by simp [irqEnabled_iff, hp, hm]

end State

open State

/-- Settles O50: the choice is by place among the enabled, and only a boundary or a wait lets it be taken. -/
theorem interruptChoiceAndBoundaries : Obligations.InterruptChoiceAndBoundaries := by
  refine ⟨?_, fun s =>
    ⟨interruptNow_eq_some_iff s, fun u c epc tval h => interruptNow_enterTrap h c epc tval, fun hp hm => ?_⟩⟩
  · intro s m pend deleg enabled place
    have same (i : Irq) : s.irqEnabled i = true ↔ enabled i := irqEnabled_iff s i
    have places (i : Irq) : s.place i = place i := by cases i <;> rfl
    simp only [pendingIrq_eq_some_iff, pendingIrq_eq_none_iff, same, places, implies_true, and_self]
  · rw [interruptNow, pendingIrq_machine hp hm, ite_self]

/-- Settles O7: each kind of step is a branch of `step`, and a fetch fault is the instruction's own trap. -/
theorem stepWithoutAnInstruction : Obligations.StepWithoutAnInstruction := by
  refine fun s => ⟨fun how ended => ?_, fun running waiting quiet => ?_, fun i running awake taken => ?_,
    fun e v t running awake quiet faults => ?_⟩
  · rw [step, ended]
  · simp [step, running, stillWaiting, waiting, quiet]
  · simp only [step, running, awake, taken]
    rfl
  · rw [step_runs running awake quiet, runInstr, faults]
    rfl

end Sys2Proof.Machine
end

section
/-! PROOFS. Traps (spec/60_exceptions.md R830 to R833): what an entry does, and the only steps that change the mode. -/
namespace Sys2Proof.Machine

/-- Clearing the low k bits rounds down to a multiple of 2^k. -/
theorem clearLow_eq_ofNat (v : Word) (k : Nat) :
    v &&& ~~~BitVec.ofNat 64 (2 ^ k - 1) = BitVec.ofNat 64 (v.toNat / 2 ^ k * 2 ^ k) := by
  have shifted : v &&& ~~~BitVec.ofNat 64 (2 ^ k - 1) = v >>> k <<< k := by
    apply BitVec.eq_of_getLsbD_eq
    intro i hi
    simp only [BitVec.getLsbD_and, BitVec.getLsbD_not, BitVec.getLsbD_ofNat, Nat.testBit_two_pow_sub_one,
      BitVec.getLsbD_shiftLeft, BitVec.getLsbD_ushiftRight, hi]
    by_cases low : i < k
    · simp [low]
    · simp [low, Nat.add_sub_cancel' (Nat.not_lt.mp low)]
  rw [shifted, ushiftRight_eq_ofNat, shiftLeft_eq_ofNat, ← BitVec.toNat_inj, BitVec.toNat_ofNat, BitVec.toNat_ofNat,
    BitVec.toNat_ofNat, Nat.mod_eq_of_lt (Nat.lt_of_le_of_lt (Nat.div_le_self ..) v.isLt)]

namespace TrapCause

/-- Whether a cause is an interrupt, and its code (R820). -/
def flagAndCode : TrapCause → Bool × Nat
  | .exception e => (false, e.code)
  | .interrupt i => (true, i.code)

theorem value_eq_ofNat (c : TrapCause) :
    c.value = BitVec.ofNat 64 ((if c.flagAndCode.1 then 2 ^ 63 else 0) + c.flagAndCode.2) := by
  cases c with
  | exception e => exact congrArg (BitVec.ofNat 64) (Nat.zero_add e.code).symm
  | interrupt i => rfl

end TrapCause

namespace State

/-! ## Trap entry -/

/-- A trap goes to S exactly if it is not taken from M and its cause is delegated (R831). -/
theorem trapTarget_eq_S_iff (s : State) (c : TrapCause) : s.trapTarget c = .S ↔
    s.priv ≠ .M ∧ (if c.flagAndCode.1 then s.csr.mideleg else s.csr.medeleg).getLsbD c.flagAndCode.2 = true := by
  unfold trapTarget
  by_cases machine : s.priv = .M
  · simp [machine]
  · cases c <;> simp [machine, TrapCause.flagAndCode]

theorem trapVector_eq_ofNat (tvec : Word) (c : TrapCause) : trapVector tvec c = BitVec.ofNat 64
    (tvec.toNat / 4 * 4 + if c.flagAndCode.1 = true ∧ tvec.toNat % 4 = 1 then 4 * c.flagAndCode.2 else 0) := by
  have base : tvec &&& ~~~3#64 = BitVec.ofNat 64 (tvec.toNat / 4 * 4) := clearLow_eq_ofNat tvec 2
  have mode : tvec.extractLsb' 0 2 = 1#2 ↔ tvec.toNat % 4 = 1 := by
    rw [← BitVec.toNat_inj, BitVec.extractLsb'_toNat]
    rfl
  unfold trapVector
  rw [base]
  cases c with
  | exception e => rfl
  | interrupt i =>
    by_cases vectored : tvec.toNat % 4 = 1
    · simp [mode, vectored, TrapCause.flagAndCode, BitVec.ofNat_add]
    · simp [mode, vectored, TrapCause.flagAndCode]

theorem enterTrap_of_S {s : State} {c : TrapCause} (h : s.trapTarget c = .S) (epc tval : Word) :
    s.enterTrap c epc tval = s.enterS c epc tval := by
  rw [enterTrap, h]

theorem enterTrap_of_not_S {s : State} {c : TrapCause} (h : s.trapTarget c ≠ .S) (epc tval : Word) :
    s.enterTrap c epc tval = s.enterM c epc tval := by
  unfold enterTrap
  split
  · exact absurd ‹_› h
  · rfl

/-! ## The mode of a step -/

@[simp] theorem endStep_priv (s : State) : s.endStep.priv = s.priv := by simp [endStep]

theorem writeCsr_priv (s : State) (c : CsrName) (v : Word) : (s.writeCsr c v).priv = s.priv := by
  obtain ⟨_, _, _, _, hw⟩ := s.writeCsr_frame c v
  rw [hw]

/-- MRET and SRET apart, every way to retire keeps the mode. -/
theorem priv_of_retired {i : Instr} {s t : State} (h : Retired i s t) (notM : i ≠ .mret) (notS : i ≠ .sret) :
    t.priv = s.priv := by
  cases h with
  | ordinary e => exact e.priv
  | writesCsr _ e => exact (writeCsr_priv ..).trans e.priv
  | mret hi => exact absurd hi notM
  | sret hi => exact absurd hi notS

/-- How a step can answer: a tick of waiting, an interrupt, or what the instruction at pc does, with the end of the step. -/
theorem step_next {s t : State} (h : step s = .next t) :
    t = s.tick ∨ (∃ i, s.interruptNow = some i ∧ t = s.tick.takeInterrupt i) ∨
      ∃ u, runInstr { s.tick with waiting := false } = .next u ∧ t = u.endStep := by
  unfold step at h
  split at h
  · cases h
  · split at h
    · cases h
      exact .inl rfl
    · split at h
      · rename_i i taken
        cases h
        exact .inr (.inl ⟨i, taken, rfl⟩)
      · cases hr : runInstr { s.tick with waiting := false } with
        | next u =>
          rw [hr] at h
          cases h
          exact .inr (.inr ⟨u, rfl, rfl⟩)
        | fault => rw [hr] at h; cases h
        | refused => rw [hr] at h; cases h

/-- How an instruction can end: with the exception of its fetch, with an exception of the bits fetched, or retired. -/
theorem runInstr_next {s u : State} (h : s.runInstr = .next u) :
    (∃ e v, s.fetchInstr.1 = .error (e, v) ∧ u = s.fetchInstr.2.enterTrap (.exception e) s.fetchInstr.2.pc v) ∨
    (∃ c e v, s.fetchInstr.1 = .ok c ∧ u = s.fetchInstr.2.enterTrap (.exception e) s.fetchInstr.2.pc v) ∨
    (∃ c i, s.fetchInstr.1 = .ok c ∧ decodeCode c = .ok i ∧ exec i s.fetchInstr.2 = .next u ∧
      u.atBoundary = true) := by
  unfold runInstr at h
  split at h
  · rename_i f t fetched
    rw [fetched]
    cases h
    exact .inl ⟨f.1, f.2, rfl, rfl⟩
  · rename_i c t fetched
    rw [fetched]
    unfold execCode at h
    split at h
    · cases h
      exact .inr (.inl ⟨c, _, _, rfl, rfl⟩)
    · rename_i i decodes
      obtain ⟨w, hw, retired⟩ | ⟨e, v, trapped⟩ := exceptionsArePrecise i t
      · cases h.symm.trans hw
        exact .inr (.inr ⟨c, i, rfl, decodes, h, retired⟩)
      · cases h.symm.trans trapped
        exact .inr (.inl ⟨c, e, v, rfl, rfl⟩)

end State

open State

/-- Settles O48: the ways to retire, and the ways a step can answer. -/
theorem modeChangesOnlyByTrapsAndReturns : Obligations.ModeChangesOnlyByTrapsAndReturns := by
  refine ⟨fun i s t h retired => priv_of_retired (retired_of_exec h retired), writeCsr_priv, ?_⟩
  intro s t h moved f
  obtain rfl | ⟨i, taken, rfl⟩ | ⟨u, ran, rfl⟩ := step_next h
  · exact absurd (tick_priv s) moved
  · exact .inl ⟨i, taken, rfl, tick_priv s⟩
  · have kept : f.2.priv = s.priv := (kept_fetchInstr _).same.priv.trans (tick_priv s)
    refine .inr ⟨kept, ?_⟩
    obtain ⟨e, v, faults, rfl⟩ | ⟨c, e, v, fetched, rfl⟩ | ⟨c, i, fetched, decodes, runs, retired⟩ := runInstr_next ran
    · exact .inl ⟨e, v, faults, rfl⟩
    · exact .inr (.inl ⟨c, e, v, fetched, rfl⟩)
    · have returns : i = .mret ∨ i = .sret := by
        by_contra other
        obtain ⟨notM, notS⟩ := not_or.mp other
        exact moved ((endStep_priv u).trans ((priv_of_retired (retired_of_exec runs retired) notM notS).trans kept))
      exact .inr (.inr ⟨c, i, u, fetched, decodes, returns, runs, retired, rfl⟩)

/-- Settles O46: the two entries, with the target, the cause and the vector as numbers. -/
theorem trapEntry : Obligations.TrapEntry := by
  intro s c epc tval m pair irq code toS cause saved vector
  have target : s.trapTarget c = .S ↔ toS := trapTarget_eq_S_iff s c
  refine ⟨fun delegated => ?_, fun undelegated => ?_⟩
  · rw [enterTrap_of_S (target.mpr delegated), enterS, c.value_eq_ofNat, clearBit0_eq_ofNat, trapVector_eq_ofNat]
    rfl
  · rw [enterTrap_of_not_S (mt target.mp undelegated), enterM, c.value_eq_ofNat, clearBit0_eq_ofNat, trapVector_eq_ofNat]
    rfl

end Sys2Proof.Machine
end

section
/-! PROOFS. Compressed computational and control instructions (spec/48_compressed.md): the integer forms of their values and
targets. -/
namespace Sys2Proof.Machine

/-- A short branch whose condition is P goes to pc + offset where P holds, and to pc + 2 elsewhere. -/
theorem exec_shortBranch {i : Instr} {s : State} {taken : Bool} {w : Nat} {offset : BitVec w} {P : Prop} [Decidable P]
    (means : exec i s = s.branch taken (sext offset) 2#64) (decides : taken = true ↔ P) :
    exec i s = .next (s.retireTo
      (if P then BitVec.ofInt 64 (s.pc.toInt + offset.toInt) else BitVec.ofInt 64 (s.pc.toInt + 2))) := by
  rw [means]
  by_cases h : P
  · rw [if_pos h, decides.mpr h, s.branch_taken]
  · rw [if_neg h, Bool.eq_false_iff.mpr (mt decides.mp h), s.branch_not_taken]
    rfl

theorem beq_zero_iff_toNat (v : Word) : (v == 0#64) = true ↔ v.toNat = 0 := by
  rw [beq_iff_eq, ← BitVec.toNat_inj]
  rfl

theorem bne_zero_iff_toNat (v : Word) : (v != 0#64) = true ↔ ¬v.toNat = 0 := by
  rw [bne, Bool.not_eq_true', ← Bool.not_eq_true, beq_zero_iff_toNat]

/-- The target of C.JR and C.JALR, which add no offset (R773, R776). -/
theorem State.jalrTarget_zero (s : State) (rs1 : Reg) :
    s.jalrTarget rs1 0#64 = BitVec.ofNat 64 ((s.readX rs1).toNat / 2 * 2) := by
  rw [State.jalrTarget, BitVec.add_zero, clearBit0_eq_ofNat]

/-- Settles O18: each value is the integer form of its meaning's sum, difference or shift, each target a sum or an even
address. -/
theorem compressedComputationAndControl : Obligations.CompressedComputationAndControl := by
  constructor
  · intro s rd rs2 d t imm n D T a b x y p word
    have amount : (zext imm).toNat % 64 = imm.toNat := toNat_zext_mod imm (by decide)
    have hD : fullReg d = D := fullReg_eq_ofNat d
    have hT : fullReg t = T := fullReg_eq_ofNat t
    subst a b
    rw [← hD, ← hT]
    refine ⟨?addi4spn, ?nop, ?addi, ?addiw, ?li, ?addi16sp, ?lui, ?srli, ?srai, ?andi, ?sub, ?xor, ?or, ?and, ?subw, ?addw,
      ?slli, ?mv, ?add⟩
    case addi4spn => exact completesX_of_eq rfl (s.effAddrU_eq_ofInt sp n)
    case addi => exact completesX_of_eq rfl (add_sext_eq_ofInt x imm)
    case addiw => exact completesX_of_eq rfl (add32_sext_eq_ofInt x imm)
    case addi16sp => exact completesX_of_eq rfl (add_sext_eq_ofInt p n)
    case lui => exact completesX_of_eq rfl (upperImm_eq_ofInt imm)
    case srli => exact completesX_of_eq rfl (shr64_eq_ofNat _ amount)
    case srai => exact completesX_of_eq rfl (sar64_eq_ofInt _ amount)
    case sub => exact completesX_of_eq rfl (sub_eq_ofInt ..)
    case subw => exact completesX_of_eq rfl (sub32_eq_ofInt ..)
    case addw => exact completesX_of_eq rfl (add32_eq_ofInt ..)
    case slli => exact completesX_of_eq rfl (shl64_eq_ofNat x amount)
    case add => exact completesX_of_eq rfl (add_eq_ofInt x y)
    case nop | li | andi | xor | or | and | mv => rfl
  · intro s rs1 d j off v target far near
    have hv : s.readX (fullReg d) = v := congrArg s.readX (fullReg_eq_ofNat d)
    have ht : s.jalrTarget rs1 0#64 = target := s.jalrTarget_zero rs1
    refine ⟨?j, ?jr, ?jalr, ?beqz, ?bnez⟩
    case j =>
      rw [← add_sext_eq_ofInt]
      rfl
    case jr | jalr =>
      rw [← ht]
      rfl
    case beqz => exact exec_shortBranch (taken := v == 0#64) (hv ▸ rfl) (beq_zero_iff_toNat v)
    case bnez =>
      rw [← ite_not]
      exact exec_shortBranch (taken := v != 0#64) (hv ▸ rfl) (bne_zero_iff_toNat v)

end Sys2Proof.Machine
end

section
/-! PROOFS. The PLIC (R851): the source a claim takes, and what claim, completion and request do to its bits. -/
namespace Sys2Proof.Machine

namespace Plic

theorem qualifies_iff (p : Plic) (id : Nat) : p.qualifies id = true ↔
    id ≠ 0 ∧ p.pending.getLsbD id = true ∧ p.enable.getLsbD id = true ∧ p.threshold.toNat < (p.priorityOf id).toNat := by
  simp [qualifies, BitVec.lt_def, and_assoc]

/-- Source 0 does not exist (D74). -/
theorem ne_zero_of_qualifies {p : Plic} {id : Nat} (h : p.qualifies id = true) : id ≠ 0 := ((p.qualifies_iff id).mp h).1

/-! ## The best source -/

/-- `best` looking at the sources below n alone. -/
def bestBelow (p : Plic) (n : Nat) : Nat :=
  (List.range n).foldl
    (fun best id => if p.qualifies id && (best == 0 || p.priorityOf best < p.priorityOf id) then id else best) 0

theorem bestBelow_all (p : Plic) : p.bestBelow 32 = p.best := rfl

theorem bestBelow_succ (p : Plic) (n : Nat) : p.bestBelow (n + 1) =
    if p.qualifies n = true ∧ (p.bestBelow n = 0 ∨ (p.priorityOf (p.bestBelow n)).toNat < (p.priorityOf n).toNat) then n
    else p.bestBelow n := by
  rw [bestBelow, List.range_succ, List.foldl_append]
  simp [bestBelow, BitVec.lt_def]

/-- id qualifies, has the highest priority of those below n that do, and comes first of those with that priority. -/
structure IsBest (p : Plic) (n id : Nat) : Prop where
  below     : id < n
  qualifies : p.qualifies id = true
  highest   : ∀ j < n, p.qualifies j = true → (p.priorityOf j).toNat ≤ (p.priorityOf id).toNat
  first     : ∀ j < n, p.qualifies j = true → (p.priorityOf j).toNat = (p.priorityOf id).toNat → id ≤ j

/-- A later source takes over only from none or from one of lower priority. -/
theorem bestBelow_spec (p : Plic) (n : Nat) :
    (p.bestBelow n = 0 ∧ ∀ j < n, ¬p.qualifies j = true) ∨ p.IsBest n (p.bestBelow n) := by
  induction n with
  | zero => exact .inl ⟨rfl, nofun⟩
  | succ n ih =>
    rw [bestBelow_succ]
    split
    · rename_i better
      obtain ⟨qualifies, better⟩ := better
      have lower (j : Nat) (hj : j < n) (hq : p.qualifies j = true) : (p.priorityOf j).toNat < (p.priorityOf n).toNat := by
        obtain ⟨-, none⟩ | best := ih
        · exact absurd hq (none j hj)
        · exact Nat.lt_of_le_of_lt (best.highest j hj hq) (better.resolve_left (ne_zero_of_qualifies best.qualifies))
      refine .inr ⟨n.lt_succ_self, qualifies, fun j hj hq => ?_, fun j hj hq same => ?_⟩
      · obtain hj | rfl := Nat.lt_succ_iff_lt_or_eq.mp hj
        · exact (lower j hj hq).le
        · exact le_rfl
      · exact Nat.le_of_not_lt fun hj => absurd same (lower j hj hq).ne
    · rename_i notBetter
      obtain ⟨zero, none⟩ | best := ih
      · refine .inl ⟨zero, fun j hj hq => ?_⟩
        obtain hj | rfl := Nat.lt_succ_iff_lt_or_eq.mp hj
        · exact none j hj hq
        · exact notBetter ⟨hq, .inl zero⟩
      · refine .inr ⟨best.below.trans n.lt_succ_self, best.qualifies, fun j hj hq => ?_, fun j hj hq same => ?_⟩
        · obtain hj | rfl := Nat.lt_succ_iff_lt_or_eq.mp hj
          · exact best.highest j hj hq
          · exact Nat.le_of_not_lt fun h => notBetter ⟨hq, .inr h⟩
        · obtain hj | rfl := Nat.lt_succ_iff_lt_or_eq.mp hj
          · exact best.first j hj hq same
          · exact best.below.le

theorem best_spec (p : Plic) : (p.best = 0 ∧ ∀ j < 32, ¬p.qualifies j = true) ∨ p.IsBest 32 p.best :=
  p.bestBelow_all ▸ p.bestBelow_spec 32

theorem isBest_of_best_ne_zero {p : Plic} (h : p.best ≠ 0) : p.IsBest 32 p.best :=
  p.best_spec.resolve_left fun none => h none.1

theorem best_eq_zero_iff (p : Plic) : p.best = 0 ↔ ∀ j < 32, ¬p.qualifies j = true := by
  refine ⟨fun zero => ?_, fun none => ?_⟩
  · obtain ⟨-, none⟩ | best := p.best_spec
    · exact none
    · exact absurd zero (ne_zero_of_qualifies best.qualifies)
  · by_contra h
    have best := isBest_of_best_ne_zero h
    exact none _ best.below best.qualifies

theorem output_iff (p : Plic) : p.output = true ↔ p.best ≠ 0 := by
  rw [Ne, best_eq_zero_iff, output, List.any_eq_true]
  simp

/-! ## Claim, completion and request -/

theorem getLsbD_bit {id : Nat} (h : id < 32) (j : Nat) : (bit id).getLsbD j = decide (id = j) := by
  rw [show bit id = BitVec.twoPow 32 id from rfl, BitVec.getLsbD_twoPow, decide_eq_true h, Bool.true_and]

/-- Clearing the bit of a source leaves the others. -/
theorem getLsbD_clearBit (v : BitVec 32) {id : Nat} (h : id < 32) (j : Nat) :
    (v &&& ~~~bit id).getLsbD j = (v.getLsbD j && j != id) := by
  rw [BitVec.getLsbD_and, BitVec.getLsbD_not, getLsbD_bit h]
  by_cases hj : j < 32
  · by_cases same : id = j <;> simp [hj, same, Ne.symm]
  · rw [BitVec.getLsbD_of_ge v j (Nat.not_lt.mp hj), Bool.false_and, Bool.false_and]

theorem claim_id (p : Plic) : p.claim.1 = p.best := by
  unfold claim
  dsimp only
  split
  · exact Eq.symm ‹_›
  · rfl

theorem claim_state {p : Plic} (h : p.best ≠ 0) :
    p.claim.2 = { p with pending := p.pending &&& ~~~bit p.best, inService := p.inService ||| bit p.best } := by
  rw [claim, if_neg h]

/-- A request sets the pending bit of a source that is not in service. -/
theorem pending_request {p : Plic} {id : Nat} (h : id < 32) (real : id ≠ 0) (idle : p.inService.getLsbD id = false) :
    (p.request id).pending.getLsbD id = true := by
  simp [request, real, idle, getLsbD_bit h]

/-- A request of a source in service is lost (log 14). -/
theorem request_inService {p : Plic} {id : Nat} (h : p.inService.getLsbD id = true) : p.request id = p := by
  simp [request, h]

theorem inService_complete (p : Plic) {id : Nat} (h : id < 32) : (p.complete id).inService.getLsbD id = false := by
  simp [complete, getLsbD_clearBit _ h]

end Plic

open Plic

/-- Settles O52: what the fold of `best` keeps, and the bits of claim, completion and request. -/
theorem plicClaimsTheBestSource : Obligations.PlicClaimsTheBestSource := by
  intro p src hsrc q id p'
  have same (j : Nat) : p.qualifies j = true ↔ q j := p.qualifies_iff j
  have hid : p.best = id := p.claim_id.symm
  have zero : id = 0 ↔ ∀ j < 32, ¬q j := by simpa only [same, hid] using p.best_eq_zero_iff
  refine ⟨zero, hid ▸ p.output_iff, fun found => ?_, pending_request hsrc⟩
  have claimed : p' = { p with pending := p.pending &&& ~~~bit id, inService := p.inService ||| bit id } :=
    hid ▸ claim_state (hid ▸ found)
  have best : p.IsBest 32 id := hid ▸ isBest_of_best_ne_zero (hid ▸ found)
  have below := best.below
  refine ⟨below, (same id).mp best.qualifies, fun j hj hq => ?_, fun j => ?_, ?_, ?_⟩
  · exact ⟨best.highest j hj ((same j).mpr hq), best.first j hj ((same j).mpr hq)⟩
  · rw [claimed]
    exact getLsbD_clearBit _ below j
  · exact request_inService (by simp [claimed, getLsbD_bit below])
  · exact pending_request below found (p'.inService_complete below)

end Sys2Proof.Machine
end

section
/-! PROOFS. The DRAM and the bus (R982, R983). -/
namespace Sys2Proof.Machine

theorem dramLatency_miss (t : TimingConfig) {q row : Nat} (h : q ≠ row) :
    dramLatency t (some q) row = t.tPRE + t.tRAS + t.tCAS := if_neg h

theorem dramLatency_hit (t : TimingConfig) (row : Nat) : dramLatency t (some row) row = t.tCAS := if_pos rfl

theorem transitTime_eq_ceilDiv (t : TimingConfig) (bytes : Nat) :
    transitTime t bytes = bytes ⌈/⌉ t.busWidthBytes * t.busLatencyCycles := rfl

/-- Settles O57: the latency by the open row, and the transit time as a rounded-up quotient. -/
theorem dramAndBusLatency : Obligations.DramAndBusLatency := by
  refine ⟨?_, fun t bytes width => ?_, fun _ => rfl⟩
  · intro u t pa bytes row bus r
    have cost : r.1 = dramLatency t u.openRow row + bus := rfl
    refine ⟨fun closed => ?_, fun hit => ?_, fun q other miss => ?_, rfl⟩
    · rw [cost, closed]
      rfl
    · rw [cost, hit, dramLatency_hit]
    · rw [cost, other, dramLatency_miss t miss]
  · refine ⟨_, transitTime_eq_ceilDiv t bytes, ?_, fun m holds => ?_⟩
    · rw [Nat.mul_comm]
      exact le_smul_ceilDiv width
    · exact (ceilDiv_le_iff_le_mul width).mpr (Nat.mul_comm .. ▸ holds)

end Sys2Proof.Machine
end
